-- ==== Sys2Proof/Word.lean ====
section
/-! DEFINITION. The word types of the core: 32-bit unsigned words (00_scope.md R7, R9), bytes, and the
41-bit `BUS41` transaction word `T = dir·2^40 + off·2^32 + data` (30_encoding.md R90). -/

namespace Sys2Proof

/-- A 32-bit unsigned word (00_scope.md R7). -/
abbrev Word := BitVec 32

/-- An 8-bit byte. -/
abbrev Byte := BitVec 8

/-- The canonical encoding of one host operation (30_encoding.md R90). -/
abbrev BusWord := BitVec 41

/-- The chaining state and every other bank of exactly eight words (10_state.md R21, R23, R31). -/
abbrev Chain := Vector Word 8

/-- A block: 64 consecutive bytes given to one compression (00_scope.md R14). -/
abbrev Block := Vector Byte 64

end Sys2Proof
end

