-- ==== Sys2Proof/Config.lean ====
section
/-! DEFINITION. What a platform or an implementation fixes (00_scope.md R8) and the free value the spec
leaves open (45_control.md R246). -/

namespace Sys2Proof.Config

/-- The free value of a host read made while `BUSY = 1` (45_control.md R246: "any value, drawn afresh for
each read, with no relation promised to the state"), indexed by the draw counter of the state. One constant
serves every instance of a platform, so instances with equal counters draw equal values: a relation R246 does
not promise. DESIGN CHOICE, log entry 4. -/
opaque busyRead : Nat → Word

/-- How many free 256-byte slots of the platform's address space lie below the window of instance `k` and
above the window before it. Any placement of disjoint windows is some such function (92_eei_decisions.md
D2). DESIGN CHOICE, log entry 11. -/
opaque windowGap : Nat → Nat

/-- One less than `NUM_INSTANCES` (00_scope.md R8: "any value at least 1"). -/
opaque extraInstances : Nat

/-- `NUM_INSTANCES`, at least 1 (60_exceptions.md R276). -/
def numInstances : Nat := extraInstances + 1

/-- The 256-byte slot that holds the window of instance `k`. -/
def windowSlot : Nat → Nat
  | 0 => windowGap 0
  | k + 1 => windowSlot k + 1 + windowGap (k + 1)

/-- `BASE` of instance `k`: an address aligned to 256 bytes (92_eei_decisions.md D2), different for each
instance (60_exceptions.md R276). -/
def base (k : Nat) : Nat := 256 * windowSlot k

/-- The reference schedule: one LOAD, 64 ROUND and one FEED per block (42_compression.md R163). Log entry 5. -/
def microStepsPerBlock : Nat := 66

end Sys2Proof.Config
end

