-- ==== Sys2Proof/Syntax.lean ====
section
/-! DEFINITION. The host operations: one constructor per row of spec/opcode_table.json (30_encoding.md R103).
A write carries its whole `data` field; a read carries none (R91: "a decoder treats its `data` as 0"). -/

namespace Sys2Proof

/-- The direction bit of an access (30_encoding.md R90). -/
inductive Dir where
  | rd
  | wr
deriving DecidableEq, Repr

/-- The 31 host operations (30_encoding.md R96, R103). -/
inductive Instr where
  /-- `WR CMD, INIT` (43_stream_padding.md R182). -/
  | wrCmdInit
  /-- `WR CMD, FINALIZE` (43_stream_padding.md R188). -/
  | wrCmdFinalize
  /-- `WR CMD, FORGE_INIT` (44_digest_forgery.md R215). -/
  | wrCmdForgeInit
  /-- `WR CMD, CLEAR_ERR` (45_control.md R243). -/
  | wrCmdClearErr
  /-- `WR CMD` with any other word (45_control.md R244). -/
  | wrCmdReserved (data : Word)
  /-- `WR DIN_BYTE` (43_stream_padding.md R184). -/
  | wrDinByte (data : Word)
  /-- `WR DIN_WORD` (43_stream_padding.md R185). -/
  | wrDinWord (data : Word)
  /-- `WR FLEN_LO` (44_digest_forgery.md R218). -/
  | wrFlenLo (data : Word)
  /-- `WR FLEN_HI` (44_digest_forgery.md R218). -/
  | wrFlenHi (data : Word)
  /-- `WR FDIGi` (44_digest_forgery.md R218). -/
  | wrFdig (i : BitVec 3) (data : Word)
  /-- `RD STATUS` (45_control.md R241). -/
  | rdStatus
  /-- `RD TOTALBITS_LO` (45_control.md R242). -/
  | rdTotalbitsLo
  /-- `RD TOTALBITS_HI` (45_control.md R242). -/
  | rdTotalbitsHi
  /-- `RD FLEN_LO` (44_digest_forgery.md R220). -/
  | rdFlenLo
  /-- `RD FLEN_HI` (44_digest_forgery.md R220). -/
  | rdFlenHi
  /-- `RD DIGESTi` (44_digest_forgery.md R211). -/
  | rdDigest (i : BitVec 3)
  /-- `RD FDIGi` (44_digest_forgery.md R220). -/
  | rdFdig (i : BitVec 3)
  /-- `RD PAD_LEN` (44_digest_forgery.md R219). -/
  | rdPadLen
  /-- `RD PADk` (44_digest_forgery.md R219). -/
  | rdPad (k : BitVec 5)
  /-- `WR STATUS`, ignored (45_control.md R247). -/
  | wrStatus (data : Word)
  /-- `WR TOTALBITS_LO`, ignored (45_control.md R247). -/
  | wrTotalbitsLo (data : Word)
  /-- `WR TOTALBITS_HI`, ignored (45_control.md R247). -/
  | wrTotalbitsHi (data : Word)
  /-- `WR DIGESTi`, ignored (45_control.md R247). -/
  | wrDigest (i : BitVec 3) (data : Word)
  /-- `WR PAD_LEN`, ignored (45_control.md R247). -/
  | wrPadLen (data : Word)
  /-- `WR PADk`, ignored (45_control.md R247). -/
  | wrPad (k : BitVec 5) (data : Word)
  /-- `RD CMD` (45_control.md R247). -/
  | rdCmd
  /-- `RD DIN_BYTE` (45_control.md R247). -/
  | rdDinByte
  /-- `RD DIN_WORD` (45_control.md R247). -/
  | rdDinWord
  /-- Either direction at the reserved offset 0x64 (45_control.md R247). -/
  | rsvd64 (dir : Dir) (data : Word)
  /-- Either direction at 0x68 + 4·sel (45_control.md R247). -/
  | rsvd68 (dir : Dir) (sel : BitVec 1) (data : Word)
  /-- Either direction at 0x70 + 4·sel (45_control.md R247). -/
  | rsvd70 (dir : Dir) (sel : BitVec 2) (data : Word)
deriving DecidableEq, Repr

end Sys2Proof
end

