-- ==== Sys2Proof/WellFormed.lean ====
section
/-! DEFINITION. Which terms of `Instr` stand for a canonical host operation. Two checks only: a reserved
command word is none of the four command words (30_encoding.md R95, R103), and a read of a reserved offset
carries no data (30_encoding.md R90: "must be 0 for a read"). -/

namespace Sys2Proof

/-- The four command words of 30_encoding.md R95. -/
def isCommandWord (data : Word) : Bool :=
  data == 0x00000001 || data == 0x00000002 || data == 0x00000003 || data == 0x00000004

/-- A read's `data` field is 0 in a canonical encoding (30_encoding.md R90, R91). -/
def canonicalData (dir : Dir) (data : Word) : Bool :=
  match dir with
  | .rd => data == 0
  | .wr => true

/-- Well-formedness of a host operation, per constructor. -/
def Instr.wellFormed (i : Instr) : Bool :=
  match i with
  | .wrCmdReserved data => !isCommandWord data
  | .rsvd64 dir data => canonicalData dir data
  | .rsvd68 dir _ data => canonicalData dir data
  | .rsvd70 dir _ data => canonicalData dir data
  | .wrCmdInit | .wrCmdFinalize | .wrCmdForgeInit | .wrCmdClearErr => true
  | .wrDinByte _ | .wrDinWord _ | .wrFlenLo _ | .wrFlenHi _ | .wrFdig _ _ => true
  | .rdStatus | .rdTotalbitsLo | .rdTotalbitsHi | .rdFlenLo | .rdFlenHi => true
  | .rdDigest _ | .rdFdig _ | .rdPadLen | .rdPad _ => true
  | .wrStatus _ | .wrTotalbitsLo _ | .wrTotalbitsHi _ | .wrDigest _ _ | .wrPadLen _ | .wrPad _ _ => true
  | .rdCmd | .rdDinByte | .rdDinWord => true

end Sys2Proof
end

