-- ==== Sys2Proof/Decode.lean ====
section
/-! DEFINITION. Decoding and encoding of host operations (30_encoding.md R90 to R97, R103), and the rows of
spec/opcode_table.json with their masks, against which the decoder can be checked. -/

namespace Sys2Proof

/-- Why an access is no operation of this core (20_memory.md R67, 30_encoding.md R92). -/
inductive DecodeError where
  /-- The access is not 32 bits wide; it has `bytes` bytes. -/
  | badWidth (bytes : Nat)
  /-- `off[1:0] ≠ 0`. -/
  | misaligned (off : BitVec 8)
  /-- No register answers the offset; 30_encoding.md R92 says this never happens. -/
  | noRegister (off : BitVec 8)
deriving DecidableEq, Repr

/-- The direction bit, bit 40 (30_encoding.md R90). -/
def busDir (t : BusWord) : Dir := if t.extractLsb' 40 1 = 1 then .wr else .rd

/-- The byte offset, bits 39:32 (30_encoding.md R90). -/
def busOff (t : BusWord) : BitVec 8 := t.extractLsb' 32 8

/-- The data field, bits 31:0 (30_encoding.md R90). -/
def busData (t : BusWord) : Word := t.extractLsb' 0 32

/-- The `dir` bit as a number: 0 read, 1 write (30_encoding.md R90). -/
def Dir.bit : Dir → BitVec 1
  | .rd => 0
  | .wr => 1

/-- `T = dir·2^40 + off·2^32 + data` (30_encoding.md R90). -/
def busWord (dir : Dir) (off : BitVec 8) (data : Word) : BusWord := dir.bit ++ off ++ data

/-- The command word of a `WR CMD` (30_encoding.md R94, R95): every word but the four codes is reserved. -/
def decodeCommand (data : Word) : Instr :=
  if data = 0x00000001 then .wrCmdInit
  else if data = 0x00000002 then .wrCmdFinalize
  else if data = 0x00000003 then .wrCmdForgeInit
  else if data = 0x00000004 then .wrCmdClearErr
  else .wrCmdReserved data

/-- The bank number `off[7:5]` (30_encoding.md R96). -/
def bankOf (off : BitVec 8) : BitVec 3 := off.extractLsb' 5 3

/-- The index `i = off[4:2]` of an eight-word bank (30_encoding.md R96). -/
def bankIndex (off : BitVec 8) : BitVec 3 := off.extractLsb' 2 3

/-- The index `k = off[6:2]` of the padding store (30_encoding.md R96). -/
def padIndex (off : BitVec 8) : BitVec 5 := off.extractLsb' 2 5

/-- The reserved offsets `0x64` to `0x7C` (30_encoding.md R97, R103), either direction. -/
def decodeReserved (dir : Dir) (off : BitVec 8) (data : Word) : Option Instr :=
  if off = 0x64 then some (.rsvd64 dir data)
  else if off.extractLsb' 3 5 = 0b01101 then some (.rsvd68 dir (off.extractLsb' 2 1) data)
  else if off.extractLsb' 4 4 = 0b0111 then some (.rsvd70 dir (off.extractLsb' 2 2) data)
  else none

/-- The write half of the register map (30_encoding.md R96). -/
def decodeWrite (off : BitVec 8) (data : Word) : Option Instr :=
  if off = 0x00 then some (decodeCommand data)
  else if off = 0x04 then some (.wrStatus data)
  else if off = 0x08 then some (.wrDinByte data)
  else if off = 0x0C then some (.wrDinWord data)
  else if off = 0x10 then some (.wrTotalbitsLo data)
  else if off = 0x14 then some (.wrTotalbitsHi data)
  else if off = 0x18 then some (.wrFlenLo data)
  else if off = 0x1C then some (.wrFlenHi data)
  else if bankOf off = 0b001 then some (.wrDigest (bankIndex off) data)
  else if bankOf off = 0b010 then some (.wrFdig (bankIndex off) data)
  else if off = 0x60 then some (.wrPadLen data)
  else if off.extractLsb' 7 1 = 1 then some (.wrPad (padIndex off) data)
  else decodeReserved .wr off data

/-- The read half of the register map (30_encoding.md R96); the data field of a read is dropped (R91). -/
def decodeRead (off : BitVec 8) : Option Instr :=
  if off = 0x00 then some .rdCmd
  else if off = 0x04 then some .rdStatus
  else if off = 0x08 then some .rdDinByte
  else if off = 0x0C then some .rdDinWord
  else if off = 0x10 then some .rdTotalbitsLo
  else if off = 0x14 then some .rdTotalbitsHi
  else if off = 0x18 then some .rdFlenLo
  else if off = 0x1C then some .rdFlenHi
  else if bankOf off = 0b001 then some (.rdDigest (bankIndex off))
  else if bankOf off = 0b010 then some (.rdFdig (bankIndex off))
  else if off = 0x60 then some .rdPadLen
  else if off.extractLsb' 7 1 = 1 then some (.rdPad (padIndex off))
  else decodeReserved .rd off 0

/-- Decoding of a 32-bit access, in the order of 30_encoding.md R92: alignment, register, command word. -/
def decode (t : BusWord) : Except DecodeError Instr :=
  if (busOff t).extractLsb' 0 2 ≠ 0 then .error (.misaligned (busOff t))
  else
    match busDir t with
    | .wr => (decodeWrite (busOff t) (busData t)).elim (.error (.noRegister (busOff t))) .ok
    | .rd => (decodeRead (busOff t)).elim (.error (.noRegister (busOff t))) .ok

/-- Decoding of an access of `bytes` bytes: only 32-bit accesses are operations (20_memory.md R67). -/
def decodeAccess (bytes : Nat) (t : BusWord) : Except DecodeError Instr :=
  if bytes = 4 then decode t else .error (.badWidth bytes)

/-- The direction of an operation. -/
def Instr.dir : Instr → Dir
  | .wrCmdInit | .wrCmdFinalize | .wrCmdForgeInit | .wrCmdClearErr | .wrCmdReserved _ => .wr
  | .wrDinByte _ | .wrDinWord _ | .wrFlenLo _ | .wrFlenHi _ | .wrFdig _ _ => .wr
  | .rdStatus | .rdTotalbitsLo | .rdTotalbitsHi | .rdFlenLo | .rdFlenHi => .rd
  | .rdDigest _ | .rdFdig _ | .rdPadLen | .rdPad _ => .rd
  | .wrStatus _ | .wrTotalbitsLo _ | .wrTotalbitsHi _ | .wrDigest _ _ | .wrPadLen _ | .wrPad _ _ => .wr
  | .rdCmd | .rdDinByte | .rdDinWord => .rd
  | .rsvd64 dir _ | .rsvd68 dir _ _ | .rsvd70 dir _ _ => dir

/-- The byte offset of an operation's register (30_encoding.md R96). -/
def Instr.off : Instr → BitVec 8
  | .wrCmdInit | .wrCmdFinalize | .wrCmdForgeInit | .wrCmdClearErr | .wrCmdReserved _ | .rdCmd => 0x00
  | .rdStatus | .wrStatus _ => 0x04
  | .wrDinByte _ | .rdDinByte => 0x08
  | .wrDinWord _ | .rdDinWord => 0x0C
  | .rdTotalbitsLo | .wrTotalbitsLo _ => 0x10
  | .rdTotalbitsHi | .wrTotalbitsHi _ => 0x14
  | .wrFlenLo _ | .rdFlenLo => 0x18
  | .wrFlenHi _ | .rdFlenHi => 0x1C
  | .rdDigest i | .wrDigest i _ => 0b001#3 ++ i ++ 0#2
  | .wrFdig i _ | .rdFdig i => 0b010#3 ++ i ++ 0#2
  | .rdPadLen | .wrPadLen _ => 0x60
  | .rdPad k | .wrPad k _ => 0b1#1 ++ k ++ 0#2
  | .rsvd64 _ _ => 0x64
  | .rsvd68 _ sel _ => 0b01101#5 ++ sel ++ 0#2
  | .rsvd70 _ sel _ => 0b0111#4 ++ sel ++ 0#2

/-- The data field of an operation; 0 for a read (30_encoding.md R90, R95). -/
def Instr.data : Instr → Word
  | .wrCmdInit => 0x00000001
  | .wrCmdFinalize => 0x00000002
  | .wrCmdForgeInit => 0x00000003
  | .wrCmdClearErr => 0x00000004
  | .wrCmdReserved d | .wrDinByte d | .wrDinWord d | .wrFlenLo d | .wrFlenHi d | .wrFdig _ d => d
  | .wrStatus d | .wrTotalbitsLo d | .wrTotalbitsHi d | .wrDigest _ d | .wrPadLen d | .wrPad _ d => d
  | .rsvd64 _ d | .rsvd68 _ _ d | .rsvd70 _ _ d => d
  | .rdStatus | .rdTotalbitsLo | .rdTotalbitsHi | .rdFlenLo | .rdFlenHi => 0
  | .rdDigest _ | .rdFdig _ | .rdPadLen | .rdPad _ => 0
  | .rdCmd | .rdDinByte | .rdDinWord => 0

/-- The canonical `BUS41` word of an operation (30_encoding.md R90). -/
def encode (i : Instr) : BusWord := busWord i.dir i.off i.data

/-- A row of spec/opcode_table.json: the words `t` with `t AND mask = value`. -/
structure OpRow where
  mnemonic : String
  value    : BusWord
  mask     : BusWord
deriving DecidableEq, Repr

/-- The row of spec/opcode_table.json a constructor stands for, match and mask as the table has them. -/
def Instr.row : Instr → OpRow
  | .wrCmdInit => ⟨"WR_CMD_INIT", 0x10000000001, 0x1FFFFFFFFFF⟩
  | .wrCmdFinalize => ⟨"WR_CMD_FINALIZE", 0x10000000002, 0x1FFFFFFFFFF⟩
  | .wrCmdForgeInit => ⟨"WR_CMD_FORGE_INIT", 0x10000000003, 0x1FFFFFFFFFF⟩
  | .wrCmdClearErr => ⟨"WR_CMD_CLEAR_ERR", 0x10000000004, 0x1FFFFFFFFFF⟩
  | .wrCmdReserved _ => ⟨"WR_CMD__reserved", 0x10000000000, 0x1FF00000000⟩
  | .wrDinByte _ => ⟨"WR_DIN_BYTE", 0x10800000000, 0x1FF00000000⟩
  | .wrDinWord _ => ⟨"WR_DIN_WORD", 0x10C00000000, 0x1FF00000000⟩
  | .wrFlenLo _ => ⟨"WR_FLEN_LO", 0x11800000000, 0x1FF00000000⟩
  | .wrFlenHi _ => ⟨"WR_FLEN_HI", 0x11C00000000, 0x1FF00000000⟩
  | .wrFdig _ _ => ⟨"WR_FDIGi", 0x14000000000, 0x1E300000000⟩
  | .rdStatus => ⟨"RD_STATUS", 0x00400000000, 0x1FF00000000⟩
  | .rdTotalbitsLo => ⟨"RD_TOTALBITS_LO", 0x01000000000, 0x1FF00000000⟩
  | .rdTotalbitsHi => ⟨"RD_TOTALBITS_HI", 0x01400000000, 0x1FF00000000⟩
  | .rdFlenLo => ⟨"RD_FLEN_LO", 0x01800000000, 0x1FF00000000⟩
  | .rdFlenHi => ⟨"RD_FLEN_HI", 0x01C00000000, 0x1FF00000000⟩
  | .rdDigest _ => ⟨"RD_DIGESTi", 0x02000000000, 0x1E300000000⟩
  | .rdFdig _ => ⟨"RD_FDIGi", 0x04000000000, 0x1E300000000⟩
  | .rdPadLen => ⟨"RD_PAD_LEN", 0x06000000000, 0x1FF00000000⟩
  | .rdPad _ => ⟨"RD_PADk", 0x08000000000, 0x18300000000⟩
  | .wrStatus _ => ⟨"WR_STATUS__read-only", 0x10400000000, 0x1FF00000000⟩
  | .wrTotalbitsLo _ => ⟨"WR_TOTALBITS_LO__read-only", 0x11000000000, 0x1FF00000000⟩
  | .wrTotalbitsHi _ => ⟨"WR_TOTALBITS_HI__read-only", 0x11400000000, 0x1FF00000000⟩
  | .wrDigest _ _ => ⟨"WR_DIGESTi__read-only", 0x12000000000, 0x1E300000000⟩
  | .wrPadLen _ => ⟨"WR_PAD_LEN__read-only", 0x16000000000, 0x1FF00000000⟩
  | .wrPad _ _ => ⟨"WR_PADk__read-only", 0x18000000000, 0x18300000000⟩
  | .rdCmd => ⟨"RD_CMD__write-only", 0x00000000000, 0x1FF00000000⟩
  | .rdDinByte => ⟨"RD_DIN_BYTE__write-only", 0x00800000000, 0x1FF00000000⟩
  | .rdDinWord => ⟨"RD_DIN_WORD__write-only", 0x00C00000000, 0x1FF00000000⟩
  | .rsvd64 _ _ => ⟨"RSVD_0x64", 0x06400000000, 0x0FF00000000⟩
  | .rsvd68 _ _ _ => ⟨"RSVD_0x68-0x6C", 0x06800000000, 0x0FB00000000⟩
  | .rsvd70 _ _ _ => ⟨"RSVD_0x70-0x7C", 0x07000000000, 0x0F300000000⟩

/-- A word lies in a row of the table. -/
def OpRow.covers (r : OpRow) (t : BusWord) : Bool := (t &&& r.mask) == r.value

/-- Bits above bit 40 belong to no `BUS41` word. DESIGN CHOICE, log entry 9: a table word with one of them
set is read as an access of no width, which is refused; otherwise it is a 32-bit access. -/
def tableWordWidth (w : Nat) : Nat := if w < 2 ^ 41 then 4 else 0

/-- The operation the decoder reads from a word numbered as spec/opcode_table.json numbers it. The format
has one length (30_encoding.md R91), so the row's length `nbits` decides nothing. -/
def decodeTableWord (nbits w : Nat) : Option Instr :=
  match decodeAccess (tableWordWidth w) (BitVec.ofNat 41 w) with
  | .ok i => some i
  | .error _ => none

end Sys2Proof
end

