-- ==== Sys2Proof/Machine/Operands.lean ====
section
/-! DEFINITION. Operand assembly (30_encoding.md R93) and the endian normalizer between byte strings and
words (40_primitives.md R130, R132; 20_memory.md R63). -/

namespace Sys2Proof.Machine

/-- `be32`: the word whose most significant byte is the first byte (40_primitives.md R130). -/
def be32 (b0 b1 b2 b3 : Byte) : Word := b0 ++ b1 ++ b2 ++ b3

/-- `bytes32`, the inverse of `be32` (40_primitives.md R130). -/
def bytes32 (w : Word) : List Byte :=
  [w.extractLsb' 24 8, w.extractLsb' 16 8, w.extractLsb' 8 8, w.extractLsb' 0 8]

/-- `words(s)`, for a byte string of whole groups of 4 bytes (40_primitives.md R130). -/
def words : List Byte → List Word
  | b0 :: b1 :: b2 :: b3 :: rest => be32 b0 b1 b2 b3 :: words rest
  | _ => []

/-- `unwords(w)` (40_primitives.md R130). -/
def unwords : List Word → List Byte
  | [] => []
  | w :: rest => bytes32 w ++ unwords rest

/-- `be64(v)`, most significant byte first (40_primitives.md R132). -/
def be64 (v : BitVec 64) : List Byte :=
  [v.extractLsb' 56 8, v.extractLsb' 48 8, v.extractLsb' 40 8, v.extractLsb' 32 8,
   v.extractLsb' 24 8, v.extractLsb' 16 8, v.extractLsb' 8 8, v.extractLsb' 0 8]

/-- The byte of a `WR DIN_BYTE`: `data[7:0]` (30_encoding.md R93). -/
def dataByte (data : Word) : Byte := data.extractLsb' 0 8

/-- The four bytes of a `WR DIN_WORD`, in stream order (30_encoding.md R93, 20_memory.md R63). -/
def dataBytes (data : Word) : List Byte := bytes32 data

/-- Bits 31:0 of a 64-bit register (20_memory.md R64). -/
def lowHalf (x : BitVec 64) : Word := x.extractLsb' 0 32

/-- Bits 63:32 of a 64-bit register (20_memory.md R64). -/
def highHalf (x : BitVec 64) : Word := x.extractLsb' 32 32

/-- `x[31:0] <- data`, the other half unchanged (30_encoding.md R93). -/
def withLowHalf (x : BitVec 64) (data : Word) : BitVec 64 := highHalf x ++ data

/-- `x[63:32] <- data`, the other half unchanged (30_encoding.md R93). -/
def withHighHalf (x : BitVec 64) (data : Word) : BitVec 64 := data ++ lowHalf x

/-- The block of a byte string of 64 bytes. -/
def blockOfBytes (s : List Byte) : Block := Vector.ofFn fun i => s.getD i 0

/-- `digest(V) = unwords(V[0..7])` (44_digest_forgery.md R210). -/
def digest (v : Chain) : List Byte := unwords v.toList

end Sys2Proof.Machine
end

