-- ==== Sys2Proof/Machine/Primitives.lean ====
section
/-! DEFINITION. The bitwise primitives of 40_primitives.md R120 to R126: pure functions on 32-bit words. -/

namespace Sys2Proof.Machine

/-- `rotl32(x, n)` (40_primitives.md R120). -/
def rotl32 (x : Word) (n : Nat) : Word :=
  let m := n % 32
  if m = 0 then x else (x <<< m) ||| (x >>> (32 - m))

/-- `FF0` (40_primitives.md R121). -/
def ff0 (x y z : Word) : Word := x ^^^ y ^^^ z

/-- `FF1`, bitwise majority (40_primitives.md R122). -/
def ff1 (x y z : Word) : Word := (x &&& y) ||| (x &&& z) ||| (y &&& z)

/-- `GG0` (40_primitives.md R123). -/
def gg0 (x y z : Word) : Word := x ^^^ y ^^^ z

/-- `GG1`, bitwise choice (40_primitives.md R124). -/
def gg1 (x y z : Word) : Word := (x &&& y) ||| (~~~x &&& z)

/-- `P0` (40_primitives.md R125). -/
def p0 (x : Word) : Word := x ^^^ rotl32 x 9 ^^^ rotl32 x 17

/-- `P1` (40_primitives.md R126). -/
def p1 (x : Word) : Word := x ^^^ rotl32 x 15 ^^^ rotl32 x 23

end Sys2Proof.Machine
end

