-- ==== Sys2Proof/Machine/Schedule.lean ====
section
/-! DEFINITION. The message-expansion scheduler (41_message_schedule.md R140 to R143): a pure function of the
block. -/

namespace Sys2Proof.Machine

/-- The next expanded word after `W[0..i-1]`, `i ≥ 16` (41_message_schedule.md R141). -/
def nextW (w : List Word) : Word :=
  let i := w.length
  p1 (w.getD (i - 16) 0 ^^^ w.getD (i - 9) 0 ^^^ rotl32 (w.getD (i - 3) 0) 15)
    ^^^ rotl32 (w.getD (i - 13) 0) 7 ^^^ w.getD (i - 6) 0

/-- `n` more expanded words, in increasing index (41_message_schedule.md R141). -/
def extendW : Nat → List Word → List Word
  | 0, w => w
  | n + 1, w => extendW n (w ++ [nextW w])

/-- `W[0..67]`: the 16 words of the block and 52 more (41_message_schedule.md R140, R141). -/
def expandW (blk : Block) : Vector Word 68 :=
  let w := extendW 52 (words blk.toList)
  Vector.ofFn fun i => w.getD i 0

/-- `W'[j] = W[j] ⊕ W[j+4]` (41_message_schedule.md R142). -/
def expandWp (w : Vector Word 68) : Vector Word 64 :=
  Vector.ofFn fun j => w[j.val] ^^^ w[j.val + 4]

end Sys2Proof.Machine
end

