-- ==== Sys2Proof/Machine/State.lean ====
section
/-! DEFINITION. The state of one core instance (10_state.md R20 to R41), the three fields the model adds for
the outside world, and the reasons a step can stop. -/

namespace Sys2Proof.Machine

/-- `PHASE`, a 2-bit register (10_state.md R29): codes 0, 1, 2 and the code 3 that is never held. -/
inductive Phase where
  | idle
  | active
  | finalized
  | illegal
deriving DecidableEq, Repr

/-- `ERR`, a 3-bit register (10_state.md R34, 60_exceptions.md R261), in the order of its codes 0 to 7. -/
inductive ErrCode where
  | none
  | invalidState
  | lengthOverflow
  | invalidArgument
  | busy
  | badCommand
  | code6
  | code7
deriving DecidableEq, Repr

/-- `ESTATE`, a 2-bit register (10_state.md R37), in the order of its codes 0 to 3. -/
inductive EState where
  | idle
  | load
  | round
  | feed
deriving DecidableEq, Repr

/-- The working registers `A` to `H` (10_state.md R37). -/
structure Working where
  a : Word
  b : Word
  c : Word
  d : Word
  e : Word
  f : Word
  g : Word
  h : Word
deriving DecidableEq, Repr

/-- One access the host issues: its width in bytes and its transaction word (30_encoding.md R90). -/
structure BusAccess where
  bytes : Nat
  word  : BusWord
deriving DecidableEq, Repr

/-- Whose turn it is (00_scope.md R13): a host operation, a platform reset, or a turn of the engine that
performs `microSteps` of its micro-steps. `engine 1` is the reference schedule; other counts stand for
other values of `ENGINE_STEPS` (42_compression.md R163). DESIGN CHOICE, log entries 1 and 5. -/
inductive Turn where
  | host (access : BusAccess)
  | engine (microSteps : Nat)
  | reset
deriving DecidableEq, Repr

/-- The state of one core instance. All fields but the last three are the spec's (10_state.md R20). -/
structure State where
  /-- `V[0..7]` (10_state.md R21). -/
  v         : Chain
  /-- `BUF[0..63]` (10_state.md R25). -/
  buf       : Block
  /-- `BUFCNT` (10_state.md R26). -/
  bufcnt    : BitVec 6
  /-- `TOTALBITS` (10_state.md R27). -/
  totalbits : BitVec 64
  /-- `PHASE` (10_state.md R29). -/
  phase     : Phase
  /-- `FDIG[0..7]` (10_state.md R31). -/
  fdig      : Chain
  /-- `FLEN` (10_state.md R32). -/
  flen      : BitVec 64
  /-- `PAD_LEN` (10_state.md R33). -/
  padLen    : BitVec 7
  /-- `PAD[0..31]` (10_state.md R33). -/
  pad       : Vector Word 32
  /-- `ERR` (10_state.md R34). -/
  err       : ErrCode
  /-- `ESTATE` (10_state.md R37). -/
  estate    : EState
  /-- `JQ`, head first (10_state.md R37). -/
  jq        : List Block
  /-- `j` (10_state.md R37). -/
  j         : BitVec 6
  /-- `A` to `H` (10_state.md R37). -/
  regs      : Working
  /-- `TJ` (10_state.md R37). -/
  tj        : Word
  /-- `W[0..67]` (10_state.md R37). -/
  w         : Vector Word 68
  /-- `W'[0..63]` (10_state.md R37). -/
  wp        : Vector Word 64
  /-- The model's own: the value the last host read returned. Log entry 3. -/
  rdata     : Word
  /-- The model's own: how many unspecified reads have drawn a free value. Log entry 4. -/
  draws     : Nat
  /-- The model's own: the turns still to come, the next one first. Log entry 1. -/
  script    : List Turn
deriving DecidableEq, Repr

/-- The machine right after reset (10_state.md R41, 70_reset_and_hazards.md R290), with nothing placed for
it to do. The last three fields are the model's own (log entries 1, 3, 4). -/
def State.reset : State where
  v         := Vector.replicate 8 0
  buf       := Vector.replicate 64 0
  bufcnt    := 0
  totalbits := 0
  phase     := .idle
  fdig      := Vector.replicate 8 0
  flen      := 0
  padLen    := 0
  pad       := Vector.replicate 32 0
  err       := .none
  estate    := .idle
  jq        := []
  j         := 0
  regs      := ⟨0, 0, 0, 0, 0, 0, 0, 0⟩
  tj        := 0
  w         := Vector.replicate 68 0
  wp        := Vector.replicate 64 0
  rdata     := 0
  draws     := 0
  script    := []

/-- The internal-consistency faults of 60_exceptions.md R268 and 93_implementation_defined.md rows 10 and
11. All are raised by `step` (before a host operation or an engine turn) or by an engine micro-step, never
by a host operation's own meaning. All are safe: the model stops where no step is defined. -/
inductive Fault where
  /-- `JQ` holds more than two blocks (R268). -/
  | queueTooLong
  /-- `ESTATE = E_LOAD` with `JQ` empty (R164, R268). -/
  | loadWithEmptyQueue
  /-- `ESTATE = E_FEED` with `JQ` empty: there is no `JQ[0]` to remove (R166). DEDUCED, log entry 6. -/
  | feedWithEmptyQueue
  /-- `PHASE = 3` (R268). -/
  | illegalPhase
  /-- `ERR` holds the code 6 or 7 (93_implementation_defined.md row 11). -/
  | illegalError
deriving DecidableEq, Repr

/-- Accesses that are no operation of the core (20_memory.md R67, 93_implementation_defined.md row 8), raised
by `step` when decoding refuses. Safe: the spec gives such an access no step. -/
inductive Refusal where
  /-- The instruction has no meaning yet; raised by `exec`. Safe. No arm is left that raises it. -/
  | notModelled (mnemonic : String)
  /-- The access is not 32 bits wide. Safe. -/
  | badWidth (bytes : Nat)
  /-- `off[1:0] ≠ 0`. Safe. -/
  | misaligned (off : BitVec 8)
  /-- No register answers the offset; 30_encoding.md R92 says this never happens. Safe. -/
  | noRegister (off : BitVec 8)
deriving DecidableEq, Repr

/-- The outcome of a step of this machine. -/
abbrev Result := Host.Outcome State Fault Refusal

end Sys2Proof.Machine
end

