-- ==== Sys2Proof/Machine/Compress.lean ====
section
/-! DEFINITION. The compression function `CF` as a pure function (42_compression.md R150 to R156) and its
constants (10_state.md R24, 42_compression.md R151, R152). -/

namespace Sys2Proof.Machine

/-- The initial vector (10_state.md R24). -/
def iv : Chain :=
  #v[0x7380166f, 0x4914b2b9, 0x172442d7, 0xda8a0600, 0xa96f30bc, 0x163138aa, 0xe38dee4d, 0xb0fb0e4e]

/-- `T'j = rotl32(Tj, j mod 32)` (42_compression.md R151). -/
def roundConstant (j : BitVec 6) : Word :=
  rotl32 (if j.toNat < 16 then 0x79cc4519 else 0x7a879d8a) (j.toNat % 32)

/-- The value of `TJ` when round 0 is loaded (42_compression.md R152). -/
def firstTJ : Word := 0x79cc4519

/-- The value of `TJ` after round `j` (42_compression.md R152, R165). -/
def nextTJ (j : BitVec 6) (tj : Word) : Word := if j = 15 then 0x9d8a7a87 else rotl32 tj 1

/-- One round (42_compression.md R153), with `T'j`, `W[j]`, `W'[j]` as arguments. -/
def roundFn (j : BitVec 6) (tj wj wpj : Word) (r : Working) : Working :=
  let a12 := rotl32 r.a 12
  let ss1 := rotl32 (a12 + r.e + tj) 7
  let ss2 := ss1 ^^^ a12
  let ff := if j.toNat < 16 then ff0 r.a r.b r.c else ff1 r.a r.b r.c
  let gg := if j.toNat < 16 then gg0 r.e r.f r.g else gg1 r.e r.f r.g
  let tt1 := ff + r.d + ss2 + wpj
  let tt2 := gg + r.h + ss1 + wj
  { a := tt1, b := r.a, c := rotl32 r.b 9, d := r.c, e := p0 tt2, f := r.e, g := rotl32 r.f 19, h := r.g }

/-- A round index is an index of `W` and `W'`. -/
theorem round_index_lt (j : BitVec 6) : j.toNat < 64 := j.isLt

/-- `W[j]` for a round index (42_compression.md R153). -/
def wAt (w : Vector Word 68) (j : BitVec 6) : Word := w[j.toNat]'(by have := round_index_lt j; omega)

/-- `W'[j]` for a round index (42_compression.md R153). -/
def wpAt (wp : Vector Word 64) (j : BitVec 6) : Word := wp[j.toNat]'(round_index_lt j)

/-- The working registers after the first `n` rounds, `n ≤ 64` (42_compression.md R154). -/
def roundsUpTo (w : Vector Word 68) (wp : Vector Word 64) (r : Working) : Nat → Working
  | 0 => r
  | n + 1 =>
    let j := BitVec.ofNat 6 n
    roundFn j (roundConstant j) (wAt w j) (wpAt wp j) (roundsUpTo w wp r n)

/-- `(A,...,H) = (V[0],...,V[7])` (42_compression.md R154, R164). -/
def workingOf (v : Chain) : Working := ⟨v[0], v[1], v[2], v[3], v[4], v[5], v[6], v[7]⟩

/-- `(V[0]⊕A, ..., V[7]⊕H)` (42_compression.md R154, R166). -/
def feedForward (v : Chain) (r : Working) : Chain :=
  #v[v[0] ^^^ r.a, v[1] ^^^ r.b, v[2] ^^^ r.c, v[3] ^^^ r.d, v[4] ^^^ r.e, v[5] ^^^ r.f, v[6] ^^^ r.g, v[7] ^^^ r.h]

/-- `CF(V, blk)` (42_compression.md R154). -/
def compress (v : Chain) (blk : Block) : Chain :=
  let w := expandW blk
  feedForward v (roundsUpTo w (expandWp w) (workingOf v) 64)

end Sys2Proof.Machine
end

