-- ==== Sys2Proof/Machine/Flags.lean ====
section
/-! DEFINITION. The only flags of the core, the fields of `STATUS` (10_state.md R38, 30_encoding.md R98). -/

namespace Sys2Proof.Machine

/-- The 2-bit code of a phase (10_state.md R29). -/
def Phase.code : Phase → BitVec 2
  | .idle => 0
  | .active => 1
  | .finalized => 2
  | .illegal => 3

/-- The 3-bit code of an error (60_exceptions.md R261). -/
def ErrCode.code : ErrCode → BitVec 3
  | .none => 0
  | .invalidState => 1
  | .lengthOverflow => 2
  | .invalidArgument => 3
  | .busy => 4
  | .badCommand => 5
  | .code6 => 6
  | .code7 => 7

/-- `BUSY = (ESTATE ≠ E_IDLE)` (10_state.md R35). -/
def State.busy (s : State) : Bool := s.estate != .idle

/-- The layout of `STATUS`: `BUFCNT` in 13:8, `ERR` in 6:4, `PHASE` in 2:1, `BUSY` in 0, the rest 0
(30_encoding.md R98). -/
def State.statusWord (s : State) : Word :=
  0#18 ++ s.bufcnt ++ 0#1 ++ s.err.code ++ 0#1 ++ s.phase.code ++ BitVec.ofBool s.busy

/-- The layout of `PAD_LEN`: bits 6:0, bits 31:7 read 0 (30_encoding.md R99). -/
def State.padLenWord (s : State) : Word := 0#25 ++ s.padLen

/-- `PAD[k]`, with `PAD18` to `PAD31` hardwired to 0 (30_encoding.md R97). DEDUCED, log entry 8. -/
def State.padWord (s : State) (k : BitVec 5) : Word :=
  if k.toNat < 18 then s.pad[k.toNat]'(k.isLt) else 0

/-- `V[i]` and `FDIG[i]` by a 3-bit index (30_encoding.md R96). -/
def bankWord (bank : Chain) (i : BitVec 3) : Word := bank[i.toNat]'(i.isLt)

end Sys2Proof.Machine
end

