-- ==== Sys2Proof/Machine/Padding.lean ====
section
/-! DEFINITION. The padding arithmetic of 44_digest_forgery.md R214 (exact integer arithmetic) and the padded
blocks of `FINALIZE` (43_stream_padding.md R188). -/

namespace Sys2Proof.Machine

/-- `paddedBits(L) = 512·⌈(8L + 65) / 512⌉` (44_digest_forgery.md R214). -/
def paddedBits (len : Nat) : Nat := 512 * ((8 * len + 65 + 511) / 512)

/-- `padLen(L) = paddedBits(L)/8 − L` (44_digest_forgery.md R214). -/
def padLength (len : Nat) : Nat := paddedBits len / 8 - len

/-- `pad(L) = 0x80 ‖ 0^(padLen(L) − 9) ‖ be64(8L)` (44_digest_forgery.md R214). -/
def padBytes (len : Nat) : List Byte :=
  0x80 :: (List.replicate (padLength len - 9) 0 ++ be64 (BitVec.ofNat 64 (8 * len)))

/-- The padding store: `PADB[0..127] = pad(L) ‖ 0^(128 − padLen(L))`, as the words `PAD[0..31]`
(44_digest_forgery.md R215, R217; 10_state.md R33). -/
def padStore (len : Nat) : Vector Word 32 :=
  let ws := words (padBytes len ++ List.replicate (128 - padLength len) 0)
  Vector.ofFn fun k => ws.getD k 0

/-- The one or two blocks `FINALIZE` queues, for the buffered bytes `x = BUF[0..b−1]` and the total bit
length of the message (43_stream_padding.md R188, R189). -/
def finalBlocks (x : List Byte) (bits : BitVec 64) : List Block :=
  let b := x.length
  if b + 1 > 56 then
    [blockOfBytes (x ++ 0x80 :: List.replicate (63 - b) 0),
     blockOfBytes (List.replicate 56 0 ++ be64 bits)]
  else
    [blockOfBytes (x ++ 0x80 :: (List.replicate (55 - b) 0 ++ be64 bits))]

end Sys2Proof.Machine
end

