-- ==== Sys2Proof/Machine/Ops.lean ====
section
/-! DEFINITION. The operations the host operations share: recording an error (the core's exception entry)
and clearing it (the return), the first failing check, reads, absorbing a byte, starting a context, queueing
the final blocks, and the platform reset. -/

namespace Sys2Proof.Machine

/-- Raising an error: the whole of the core's exception entry (60_exceptions.md R262, R271). The first error
since the last clear is kept. -/
def State.raiseError (e : ErrCode) (s : State) : State :=
  if s.err = .none then { s with err := e } else s

/-- Returning from an error: `ERR <- NONE` (45_control.md R243, 60_exceptions.md R272). -/
def State.clearError (s : State) : State := { s with err := .none }

/-- The code of the first failing check of a list, each check with the code it raises
(43_stream_padding.md R180, 60_exceptions.md R267). -/
def firstFailing : List (Bool × ErrCode) → Option ErrCode
  | [] => none
  | (failed, e) :: rest => if failed then some e else firstFailing rest

/-- A host write: the first failing check raises its error and nothing else happens; otherwise the write has
its effect (43_stream_padding.md R180, 60_exceptions.md R260). -/
def State.checkedWrite (s : State) (checks : List (Bool × ErrCode)) (effect : State → State) : Result :=
  match firstFailing checks with
  | some e => .next (s.raiseError e)
  | none => .next (effect s)

/-- The value of a read, left on the read-data lines; no other state changes (20_memory.md R70). -/
def State.answer (s : State) (value : Word) : State := { s with rdata := value }

/-- An unspecified read: a free value, drawn afresh (45_control.md R246). It depends on the draw counter alone,
so equal counters, in two runs or in two instances, give equal values. DESIGN CHOICE, log entry 4. -/
def State.answerFree (s : State) : State :=
  { s with rdata := Config.busyRead s.draws, draws := s.draws + 1 }

/-- A host read of any register but `STATUS` (45_control.md R246). -/
def State.hostRead (s : State) (value : Word) : Result :=
  .next (if s.busy then s.answerFree else s.answer value)

/-- `BUF[BUFCNT] <- b; BUFCNT <- BUFCNT + 1`, the block not yet full (43_stream_padding.md R183). -/
def State.bufferByte (b : Byte) (s : State) : State :=
  { s with buf := s.buf.set s.bufcnt.toNat b s.bufcnt.isLt, bufcnt := s.bufcnt + 1 }

/-- The byte that makes the count reach 64: the block is copied into the job queue, the engine starts,
`TOTALBITS` grows by 512, the count returns to 0 (43_stream_padding.md R183). -/
def State.completeBlock (b : Byte) (s : State) : State :=
  { s with
    buf := s.buf.set s.bufcnt.toNat b s.bufcnt.isLt
    bufcnt := 0
    totalbits := s.totalbits + 512
    jq := s.jq ++ [s.buf.set s.bufcnt.toNat b s.bufcnt.isLt]
    estate := .load }

/-- `absorb(b)` (43_stream_padding.md R183). -/
def State.absorb (b : Byte) (s : State) : State :=
  if s.bufcnt.toNat + 1 = 64 then s.completeBlock b else s.bufferByte b

/-- Absorbing a byte string in order, within one host step (43_stream_padding.md R185). -/
def State.absorbAll (bs : List Byte) (s : State) : State := bs.foldl (fun t b => t.absorb b) s

/-- The length check: `TOTALBITS + 8·(BUFCNT + n) ≤ 2^64 − 1`, exactly (43_stream_padding.md R186). -/
def State.lengthFits (s : State) (n : Nat) : Bool :=
  s.totalbits.toNat + 8 * (s.bufcnt.toNat + n) ≤ 2 ^ 64 - 1

/-- The checks of a data write of `n` bytes, in order (43_stream_padding.md R184, R185). -/
def State.dataChecks (s : State) (n : Nat) : List (Bool × ErrCode) :=
  [(s.busy, .busy), (s.phase != .active, .invalidState), (!s.lengthFits n, .lengthOverflow)]

/-- A new context with chaining state `v` and length counter `bits` (43_stream_padding.md R182,
44_digest_forgery.md R215). -/
def State.startContext (v : Chain) (bits : BitVec 64) (s : State) : State :=
  { s with v := v, totalbits := bits, bufcnt := 0, phase := .active }

/-- The padding outputs for an original length of `len` bytes (44_digest_forgery.md R217). -/
def State.storePadding (len : Nat) (s : State) : State :=
  { s with padLen := BitVec.ofNat 7 (padLength len), pad := padStore len }

/-- The buffered bytes `BUF[0..BUFCNT−1]` (10_state.md R25). -/
def State.buffered (s : State) : List Byte := s.buf.toList.take s.bufcnt.toNat

/-- The bit length of the message taken in, `TOTALBITS + 8·BUFCNT`, as the 64-bit counter holds it
(43_stream_padding.md R188, 10_state.md R28). Log entry 12. -/
def State.messageBits (s : State) : BitVec 64 := s.totalbits + 8 * s.bufcnt.setWidth 64

/-- The effect of `FINALIZE` (43_stream_padding.md R188). -/
def State.queueFinal (s : State) : State :=
  { s with
    totalbits := s.messageBits
    jq := s.jq ++ finalBlocks s.buffered s.messageBits
    estate := .load
    bufcnt := 0
    phase := .finalized }

/-- `FDIG[i] <- data` (44_digest_forgery.md R218). -/
def State.writeFdig (i : BitVec 3) (data : Word) (s : State) : State :=
  { s with fdig := s.fdig.set i.toNat data i.isLt }

/-- `FLEN <- x` (44_digest_forgery.md R218). -/
def State.writeFlen (x : BitVec 64) (s : State) : State := { s with flen := x }

/-- The platform reset: every piece of the core's state takes its reset value (70_reset_and_hazards.md R290);
the read-data lines, the draw counter and the turns to come are the outside world's and stay.
DESIGN CHOICE, log entry 3. -/
def State.platformReset (s : State) : State :=
  { State.reset with rdata := s.rdata, draws := s.draws, script := s.script }

/-- The model's name for each reason decoding refuses an access. -/
def refusalOf : DecodeError → Refusal
  | .badWidth bytes => .badWidth bytes
  | .misaligned off => .misaligned off
  | .noRegister off => .noRegister off

end Sys2Proof.Machine
end

