-- ==== Sys2Proof/Machine/Command.lean ====
section
/-! DEFINITION. Meanings of the `WR CMD` operations (45_control.md R240; 43_stream_padding.md R182, R188;
44_digest_forgery.md R215; 45_control.md R243, R244). -/

namespace Sys2Proof.Machine

/-- `INIT` (43_stream_padding.md R182). -/
def execWrCmdInit (s : State) : Result :=
  s.checkedWrite [(s.busy, .busy)] (State.startContext iv 0)

/-- `FINALIZE` (43_stream_padding.md R188). -/
def execWrCmdFinalize (s : State) : Result :=
  s.checkedWrite [(s.busy, .busy), (s.phase != .active, .invalidState)] State.queueFinal

/-- The forgery length check: `paddedBits(FLEN) ≤ 2^64 − 512` (44_digest_forgery.md R216). -/
def State.forgeryFits (s : State) : Bool := paddedBits s.flen.toNat ≤ 2 ^ 64 - 512

/-- The effect of `FORGE_INIT` (44_digest_forgery.md R215, R217). -/
def State.forgeContext (s : State) : State :=
  (s.startContext s.fdig (BitVec.ofNat 64 (paddedBits s.flen.toNat))).storePadding s.flen.toNat

/-- `FORGE_INIT` (44_digest_forgery.md R215). -/
def execWrCmdForgeInit (s : State) : Result :=
  s.checkedWrite [(s.busy, .busy), (!s.forgeryFits, .lengthOverflow)] State.forgeContext

/-- `CLEAR_ERR`, accepted also while busy (45_control.md R243). -/
def execWrCmdClearErr (s : State) : Result := s.checkedWrite [] State.clearError

/-- A reserved command word: `BUSY` while busy, else `BAD_COMMAND` (45_control.md R240, R244). The word
itself selects nothing. -/
def execWrCmdReserved (_data : Word) (s : State) : Result :=
  s.checkedWrite [(s.busy, .busy), (true, .badCommand)] id

end Sys2Proof.Machine
end

