-- ==== Sys2Proof/Machine/DataIn.lean ====
section
/-! DEFINITION. Meanings of the data writes (43_stream_padding.md R184, R185). -/

namespace Sys2Proof.Machine

/-- `WR DIN_BYTE` (43_stream_padding.md R184). -/
def execWrDinByte (data : Word) (s : State) : Result :=
  s.checkedWrite (s.dataChecks 1) (State.absorb (dataByte data))

/-- `WR DIN_WORD` (43_stream_padding.md R185). -/
def execWrDinWord (data : Word) (s : State) : Result :=
  s.checkedWrite (s.dataChecks 4) (State.absorbAll (dataBytes data))

end Sys2Proof.Machine
end

