-- ==== Sys2Proof/Machine/ForgeInput.lean ====
section
/-! DEFINITION. Meanings of the writes of the forgery inputs (44_digest_forgery.md R218). -/

namespace Sys2Proof.Machine

/-- `WR FLEN_LO` (44_digest_forgery.md R218). -/
def execWrFlenLo (data : Word) (s : State) : Result :=
  s.checkedWrite [(s.busy, .busy)] (State.writeFlen (withLowHalf s.flen data))

/-- `WR FLEN_HI` (44_digest_forgery.md R218). -/
def execWrFlenHi (data : Word) (s : State) : Result :=
  s.checkedWrite [(s.busy, .busy)] (State.writeFlen (withHighHalf s.flen data))

/-- `WR FDIGi` (44_digest_forgery.md R218). -/
def execWrFdig (i : BitVec 3) (data : Word) (s : State) : Result :=
  s.checkedWrite [(s.busy, .busy)] (State.writeFdig i data)

end Sys2Proof.Machine
end

