-- ==== Sys2Proof/Machine/Ignored.lean ====
section
/-! DEFINITION. Meanings of the accesses that select no ordinary register (45_control.md R247): writes to
read-only slots, reads of write-only slots, and the reserved offsets. -/

namespace Sys2Proof.Machine

/-- A write that is ignored, whether or not `BUSY = 1` (45_control.md R247). -/
def State.ignoreWrite (s : State) (_data : Word) : Result := .next s

/-- An access to a reserved offset: reads 0, writes ignored (45_control.md R247, 30_encoding.md R97). -/
def State.reservedAccess (s : State) (dir : Dir) (data : Word) : Result :=
  match dir with
  | .rd => s.hostRead 0
  | .wr => s.ignoreWrite data

/-- `WR STATUS` (45_control.md R247). -/
def execWrStatus (data : Word) (s : State) : Result := s.ignoreWrite data

/-- `WR TOTALBITS_LO` (45_control.md R247). -/
def execWrTotalbitsLo (data : Word) (s : State) : Result := s.ignoreWrite data

/-- `WR TOTALBITS_HI` (45_control.md R247). -/
def execWrTotalbitsHi (data : Word) (s : State) : Result := s.ignoreWrite data

/-- `WR DIGESTi` (45_control.md R247). -/
def execWrDigest (_i : BitVec 3) (data : Word) (s : State) : Result := s.ignoreWrite data

/-- `WR PAD_LEN` (45_control.md R247). -/
def execWrPadLen (data : Word) (s : State) : Result := s.ignoreWrite data

/-- `WR PADk` (45_control.md R247). -/
def execWrPad (_k : BitVec 5) (data : Word) (s : State) : Result := s.ignoreWrite data

/-- `RD CMD` (45_control.md R247). -/
def execRdCmd (s : State) : Result := s.hostRead 0

/-- `RD DIN_BYTE` (45_control.md R247). -/
def execRdDinByte (s : State) : Result := s.hostRead 0

/-- `RD DIN_WORD` (45_control.md R247). -/
def execRdDinWord (s : State) : Result := s.hostRead 0

/-- The reserved offset 0x64 (45_control.md R247). -/
def execRsvd64 (dir : Dir) (data : Word) (s : State) : Result := s.reservedAccess dir data

/-- The reserved offsets 0x68 and 0x6C (45_control.md R247). -/
def execRsvd68 (dir : Dir) (_sel : BitVec 1) (data : Word) (s : State) : Result := s.reservedAccess dir data

/-- The reserved offsets 0x70 to 0x7C (45_control.md R247). -/
def execRsvd70 (dir : Dir) (_sel : BitVec 2) (data : Word) (s : State) : Result := s.reservedAccess dir data

end Sys2Proof.Machine
end

