-- ==== Sys2Proof/Machine/Read.lean ====
section
/-! DEFINITION. Meanings of the register reads (45_control.md R241, R242; 44_digest_forgery.md R211, R219,
R220). -/

namespace Sys2Proof.Machine

/-- `RD STATUS`, the only read whose value is defined while busy (45_control.md R241). -/
def execRdStatus (s : State) : Result := .next (s.answer s.statusWord)

/-- `RD TOTALBITS_LO` (45_control.md R242). -/
def execRdTotalbitsLo (s : State) : Result := s.hostRead (lowHalf s.totalbits)

/-- `RD TOTALBITS_HI` (45_control.md R242). -/
def execRdTotalbitsHi (s : State) : Result := s.hostRead (highHalf s.totalbits)

/-- `RD FLEN_LO` (44_digest_forgery.md R220). -/
def execRdFlenLo (s : State) : Result := s.hostRead (lowHalf s.flen)

/-- `RD FLEN_HI` (44_digest_forgery.md R220). -/
def execRdFlenHi (s : State) : Result := s.hostRead (highHalf s.flen)

/-- `RD DIGESTi` (44_digest_forgery.md R211). -/
def execRdDigest (i : BitVec 3) (s : State) : Result := s.hostRead (bankWord s.v i)

/-- `RD FDIGi` (44_digest_forgery.md R220). -/
def execRdFdig (i : BitVec 3) (s : State) : Result := s.hostRead (bankWord s.fdig i)

/-- `RD PAD_LEN` (44_digest_forgery.md R219). -/
def execRdPadLen (s : State) : Result := s.hostRead s.padLenWord

/-- `RD PADk` (44_digest_forgery.md R219, 30_encoding.md R97). -/
def execRdPad (k : BitVec 5) (s : State) : Result := s.hostRead (s.padWord k)

end Sys2Proof.Machine
end

