-- ==== Sys2Proof/Machine/Dispatch.lean ====
section
/-! DEFINITION. One arm per host operation. -/

namespace Sys2Proof.Machine

def exec (i : Instr) (s : State) : Host.Outcome State Fault Refusal :=
  match i with
  -- commands
  | .wrCmdInit => Sys2Proof.Machine.execWrCmdInit s
  | .wrCmdFinalize => Sys2Proof.Machine.execWrCmdFinalize s
  | .wrCmdForgeInit => Sys2Proof.Machine.execWrCmdForgeInit s
  | .wrCmdClearErr => Sys2Proof.Machine.execWrCmdClearErr s
  | .wrCmdReserved data => Sys2Proof.Machine.execWrCmdReserved data s
  -- data and forgery inputs
  | .wrDinByte data => Sys2Proof.Machine.execWrDinByte data s
  | .wrDinWord data => Sys2Proof.Machine.execWrDinWord data s
  | .wrFlenLo data => Sys2Proof.Machine.execWrFlenLo data s
  | .wrFlenHi data => Sys2Proof.Machine.execWrFlenHi data s
  | .wrFdig k data => Sys2Proof.Machine.execWrFdig k data s
  -- reads
  | .rdStatus => Sys2Proof.Machine.execRdStatus s
  | .rdTotalbitsLo => Sys2Proof.Machine.execRdTotalbitsLo s
  | .rdTotalbitsHi => Sys2Proof.Machine.execRdTotalbitsHi s
  | .rdFlenLo => Sys2Proof.Machine.execRdFlenLo s
  | .rdFlenHi => Sys2Proof.Machine.execRdFlenHi s
  | .rdDigest k => Sys2Proof.Machine.execRdDigest k s
  | .rdFdig k => Sys2Proof.Machine.execRdFdig k s
  | .rdPadLen => Sys2Proof.Machine.execRdPadLen s
  | .rdPad k => Sys2Proof.Machine.execRdPad k s
  -- accesses that select no ordinary register
  | .wrStatus data => Sys2Proof.Machine.execWrStatus data s
  | .wrTotalbitsLo data => Sys2Proof.Machine.execWrTotalbitsLo data s
  | .wrTotalbitsHi data => Sys2Proof.Machine.execWrTotalbitsHi data s
  | .wrDigest k data => Sys2Proof.Machine.execWrDigest k data s
  | .wrPadLen data => Sys2Proof.Machine.execWrPadLen data s
  | .wrPad k data => Sys2Proof.Machine.execWrPad k data s
  | .rdCmd => Sys2Proof.Machine.execRdCmd s
  | .rdDinByte => Sys2Proof.Machine.execRdDinByte s
  | .rdDinWord => Sys2Proof.Machine.execRdDinWord s
  | .rsvd64 dir data => Sys2Proof.Machine.execRsvd64 dir data s
  | .rsvd68 dir sel data => Sys2Proof.Machine.execRsvd68 dir sel data s
  | .rsvd70 dir sel data => Sys2Proof.Machine.execRsvd70 dir sel data s

end Sys2Proof.Machine
end

