-- ==== Sys2Proof/Machine/Engine.lean ====
section
/-! DEFINITION. The engine: LOAD, ROUND and FEED micro-steps (42_compression.md R161 to R166), a turn of any
number of them (R163), and the collapsed job (R167, R168). -/

namespace Sys2Proof.Machine

/-- LOAD of the block `blk = JQ[0]` (42_compression.md R164). -/
def State.loadStep (blk : Block) (s : State) : State :=
  { s with
    w := expandW blk
    wp := expandWp (expandW blk)
    regs := workingOf s.v
    j := 0
    tj := firstTJ
    estate := .round }

/-- ROUND (42_compression.md R165). -/
def State.roundStep (s : State) : State :=
  { s with
    regs := roundFn s.j s.tj (wAt s.w s.j) (wpAt s.wp s.j) s.regs
    tj := nextTJ s.j s.tj
    estate := if s.j = 63 then .feed else .round
    j := if s.j = 63 then s.j else s.j + 1 }

/-- FEED, `rest` being the queue without its head (42_compression.md R166). -/
def State.feedStep (rest : List Block) (s : State) : State :=
  { s with
    v := feedForward s.v s.regs
    jq := rest
    estate := if rest = [] then .idle else .load }

/-- One engine micro-step; with `ESTATE = E_IDLE` the engine has no step and nothing changes
(42_compression.md R161). An empty queue in LOAD or FEED is an internal-consistency fault (R164, R268; for
FEED log entry 6). -/
def microStep (s : State) : Result :=
  match s.estate with
  | .idle => .next s
  | .load =>
    match s.jq with
    | [] => .fault .loadWithEmptyQueue
    | blk :: _ => .next (s.loadStep blk)
  | .round => .next s.roundStep
  | .feed =>
    match s.jq with
    | [] => .fault .feedWithEmptyQueue
    | _ :: rest => .next (s.feedStep rest)

/-- `n` micro-steps in one engine turn (42_compression.md R163). Log entry 5. -/
def engineTurn : Nat → State → Result
  | 0, s => .next s
  | n + 1, s =>
    match microStep s with
    | .next t => engineTurn n t
    | .fault f => .fault f
    | .refused r => .refused r

/-- The chaining state when the queued job is done: `CF(…CF(V, JQ[0])…, JQ[last])` (42_compression.md
R167). -/
def State.eventual (s : State) : Chain := s.jq.foldl compress s.v

/-- The collapsed job: the host-visible effect of the whole job at once (42_compression.md R167, R168). -/
def State.collapsedJob (s : State) : State := { s with v := s.eventual, jq := [], estate := .idle }

end Sys2Proof.Machine
end

