-- ==== Sys2Proof/Machine/Turns.lean ====
section
/-! DEFINITION. What one turn does: a host access, an engine turn, or a reset (00_scope.md R13), with the
internal-consistency check before the first two (60_exceptions.md R268). `Step.lean` only calls these. -/

namespace Sys2Proof.Machine

/-- The state violates the bookkeeping of 60_exceptions.md R268 or 93_implementation_defined.md row 11.
`BUFCNT ≥ 64` has no code in the 6-bit register. Log entry 6. -/
def State.inconsistency (s : State) : Option Fault :=
  if s.jq.length > 2 then some .queueTooLong
  else if s.estate = .load ∧ s.jq = [] then some .loadWithEmptyQueue
  else if s.phase = .illegal then some .illegalPhase
  else if s.err = .code6 ∨ s.err = .code7 then some .illegalError
  else none

/-- A step of an agent is defined only in a consistent state (60_exceptions.md R268). -/
def State.ifConsistent (s : State) (next : State → Result) : Result :=
  match s.inconsistency with
  | some f => .fault f
  | none => next s

/-- The host's turn: the access is decoded and run, or refused (30_encoding.md R92). -/
def hostTurn (a : BusAccess) (s : State) : Result :=
  match decodeAccess a.bytes a.word with
  | .ok i => exec i s
  | .error e => .refused (refusalOf e)

/-- One turn of the given agent. A reset is possible in every state, also an inconsistent one
(60_exceptions.md R268, 70_reset_and_hazards.md R290). -/
def takeTurn (t : Turn) (s : State) : Result :=
  match t with
  | .host a => s.ifConsistent (hostTurn a)
  | .engine n => s.ifConsistent (engineTurn n)
  | .reset => .next s.platformReset

/-- What happens when no turn is placed: the engine, if it has a step, takes one (its steps are fair,
42_compression.md R162); otherwise the core waits for the host (70_reset_and_hazards.md R292). Log entry
1. -/
def idleTurn (s : State) : Result := s.ifConsistent microStep

/-- The next turn of the script, which is taken off it. -/
def nextTurn (s : State) : Result :=
  match s.script with
  | [] => idleTurn s
  | t :: rest => takeTurn t { s with script := rest }

/-- The access a table word stands for (30_encoding.md R90; width by `tableWordWidth`, log entry 9). -/
def tableAccess (w : Nat) : BusAccess := ⟨tableWordWidth w, BitVec.ofNat 41 w⟩

end Sys2Proof.Machine
end

