-- ==== Sys2Proof/Machine/Step.lean ====
section
/-! DEFINITION. The step of the machine, and the placing of an operation as its next turn. -/

namespace Sys2Proof.Machine

/-- One step: the next turn of the script (00_scope.md R13). -/
def step (s : State) : Host.Outcome State Fault Refusal := nextTurn s

/-- The operation with the table word `w` placed as the next turn (log entry 2). There is one format and one
length (30_encoding.md R91), so `nbits` decides nothing. -/
def State.withFetchWord (s : State) (nbits w : Nat) : State :=
  { s with script := .host (tableAccess w) :: s.script }

end Sys2Proof.Machine
end

