-- ==== Sys2Proof/Machine/Assembler.lean ====
section
/-! DEFINITION. The host assembler of 30_encoding.md R101 and R102: register and command names, the lines
`RD` and `WR`, and the pseudo-operations. The host's own loop in `WAIT` is a number of reads given as an
argument. Log entry 14. -/

namespace Sys2Proof.Machine

/-- The register names of 30_encoding.md R96. -/
inductive RegName where
  | cmd
  | status
  | dinByte
  | dinWord
  | totalbitsLo
  | totalbitsHi
  | flenLo
  | flenHi
  | digest (i : BitVec 3)
  | fdig (i : BitVec 3)
  | padLen
  | pad (k : BitVec 5)
deriving DecidableEq, Repr

/-- The offset of a named register (30_encoding.md R96). -/
def RegName.off : RegName → BitVec 8
  | .cmd => 0x00
  | .status => 0x04
  | .dinByte => 0x08
  | .dinWord => 0x0C
  | .totalbitsLo => 0x10
  | .totalbitsHi => 0x14
  | .flenLo => 0x18
  | .flenHi => 0x1C
  | .digest i => 0x20 + 4 * i.setWidth 8
  | .fdig i => 0x40 + 4 * i.setWidth 8
  | .padLen => 0x60
  | .pad k => 0x80 + 4 * k.setWidth 8

/-- The command names of 30_encoding.md R95. -/
inductive CommandName where
  | init
  | finalize
  | forgeInit
  | clearErr
deriving DecidableEq, Repr

/-- The code a command name stands for (30_encoding.md R95, R101). -/
def CommandName.code : CommandName → Word
  | .init => 0x01
  | .finalize => 0x02
  | .forgeInit => 0x03
  | .clearErr => 0x04

/-- The line `RD <reg>` (30_encoding.md R101). -/
def asmRd (r : RegName) : BusWord := busWord .rd r.off 0

/-- The line `WR <reg>, <value>` (30_encoding.md R101). -/
def asmWr (r : RegName) (value : Word) : BusWord := busWord .wr r.off value

/-- The pseudo-operations of 30_encoding.md R102. A host's `WAIT` loop reads `STATUS` once more than the number
of reads that see `BUSY = 1`; that number is the argument `busyReads`, one for each loop of a `FEED`
(none given means 0). Log entry 14. -/
inductive Pseudo where
  | cmd (name : CommandName)
  | wait (busyReads : Nat)
  | feedw (w : Word) (busyReads : Nat)
  | feedb (b : Byte) (busyReads : Nat)
  | feed (bytes : List Byte) (busyReads : List Nat)
  | setlen (len : BitVec 64)
  | setfdig (ws : Chain)
  | readdigest
  | readpad
deriving DecidableEq, Repr

/-- `WAIT` (30_encoding.md R102). -/
def waitLines (busyReads : Nat) : List BusWord := List.replicate (busyReads + 1) (asmRd .status)

/-- `FEEDW` (30_encoding.md R102). -/
def feedwLines (w : Word) (busyReads : Nat) : List BusWord := asmWr .dinWord w :: waitLines busyReads

/-- `FEEDB` (30_encoding.md R102). -/
def feedbLines (b : Byte) (busyReads : Nat) : List BusWord := asmWr .dinByte (b.setWidth 32) :: waitLines busyReads

/-- `FEED "<bytes>"`: whole groups of four bytes by `FEEDW`, the remaining bytes by `FEEDB`
(30_encoding.md R102). -/
def feedBytes (busyReads : List Nat) : List Byte → List BusWord
  | b0 :: b1 :: b2 :: b3 :: rest =>
    feedwLines (be32 b0 b1 b2 b3) (busyReads.headD 0) ++ feedBytes busyReads.tail rest
  | b :: rest => feedbLines b (busyReads.headD 0) ++ feedBytes busyReads.tail rest
  | [] => []

/-- The expansion of a pseudo-operation (30_encoding.md R102). -/
def Pseudo.expand : Pseudo → List BusWord
  | .cmd name => [asmWr .cmd name.code]
  | .wait busyReads => waitLines busyReads
  | .feedw w busyReads => feedwLines w busyReads
  | .feedb b busyReads => feedbLines b busyReads
  | .feed bytes busyReads => feedBytes busyReads bytes
  | .setlen len => [asmWr .flenLo (lowHalf len), asmWr .flenHi (highHalf len)]
  | .setfdig ws => (List.finRange 8).map fun i => asmWr (.fdig (BitVec.ofFin i)) ws[i]
  | .readdigest => (List.finRange 8).map fun i => asmRd (.digest (BitVec.ofFin i))
  | .readpad => asmRd .padLen :: (List.finRange 18).map fun k => asmRd (.pad (BitVec.ofNat 5 k))

end Sys2Proof.Machine
end

