-- ==== Sys2Proof/Machine/Bus.lean ====
section
/-! DEFINITION. How the platform's addresses reach a core's register window (00_scope.md R12, 20_memory.md
R60, R61; 92_eei_decisions.md D2). -/

namespace Sys2Proof.Machine

/-- The window is 256 bytes (20_memory.md R60). -/
def windowBytes : Nat := 256

/-- The address lies in the window of instance `k` (20_memory.md R60). -/
def inWindow (k addr : Nat) : Bool := Config.base k ≤ addr && addr < Config.base k + windowBytes

/-- The access instance `k` sees when the bus carries an access of `bytes` bytes at `addr`; none when the
address is outside its window. -/
def windowAccess (k : Nat) (dir : Dir) (addr bytes : Nat) (data : Word) : Option BusAccess :=
  if inWindow k addr then
    some ⟨bytes, busWord dir (BitVec.ofNat 8 (addr - Config.base k)) data⟩
  else none

/-- `MemRead(addr, n)` (00_scope.md R12); a read carries data 0 (30_encoding.md R90). -/
def memRead (k addr bytes : Nat) : Option BusAccess := windowAccess k .rd addr bytes 0

/-- `MemWrite(addr, n, v)` (00_scope.md R12). -/
def memWrite (k addr bytes : Nat) (data : Word) : Option BusAccess := windowAccess k .wr addr bytes data

end Sys2Proof.Machine
end

