-- ==== Sys2Proof/Machine/Platform.lean ====
section
/-! DEFINITION. A platform of several core instances that share no state (60_exceptions.md R276,
70_reset_and_hazards.md R302), and the one serialised order in which the bus presents accesses
(20_memory.md R78). -/

namespace Sys2Proof.Machine

/-- The instances of a platform, by instance number (60_exceptions.md R276). -/
structure Platform where
  instances : List State
deriving DecidableEq, Repr

/-- All `NUM_INSTANCES` instances right after reset (60_exceptions.md R276). Their draw counters start equal, so
the nth unspecified reads of two instances are equal. DESIGN CHOICE, log entry 4: R246 promises no relation. -/
def Platform.reset : Platform := ⟨List.replicate Config.numInstances State.reset⟩

/-- Instance `k` takes one step; the others do not move. The outcome is that of the instance; none if there
is no such instance. -/
def Platform.stepAt (p : Platform) (k : Nat) : Option (Host.Outcome Platform Fault Refusal) :=
  p.instances[k]?.map fun s =>
    match step s with
    | .next t => .next ⟨p.instances.set k t⟩
    | .fault f => .fault f
    | .refused r => .refused r

/-- Placing an access as the last turn of a state's script. -/
def State.enqueue (s : State) (a : BusAccess) : State := { s with script := s.script ++ [.host a] }

/-- The bus presents an access to the platform: it joins the script of the instance in whose window the
address lies (20_memory.md R78). -/
def Platform.present (p : Platform) (dir : Dir) (addr bytes : Nat) (data : Word) : Platform :=
  ⟨p.instances.mapIdx fun k s =>
    match windowAccess k dir addr bytes data with
    | some a => s.enqueue a
    | none => s⟩

end Sys2Proof.Machine
end

