-- ==== Sys2Proof/Safety.lean ====
section
/-! DEFINITION. What claims are stated with: consistent states, the invariant of the core, the host's view of
a state, the message a context holds, and the hash as a pure function. -/

namespace Sys2Proof.Machine

/-- What a host can read of a state with `BUSY = 0`, and `STATUS` (20_memory.md R70, 10_state.md R39). -/
structure HostView where
  v         : Chain
  bufcnt    : BitVec 6
  totalbits : BitVec 64
  phase     : Phase
  fdig      : Chain
  flen      : BitVec 64
  padLen    : BitVec 7
  pad       : Vector Word 32
  err       : ErrCode
  busy      : Bool
deriving DecidableEq, Repr

/-- The host's view of a state. -/
def State.hostView (s : State) : HostView :=
  ⟨s.v, s.bufcnt, s.totalbits, s.phase, s.fdig, s.flen, s.padLen, s.pad, s.err, s.busy⟩

/-- The bookkeeping of the job queue: `E_IDLE` exactly when `JQ` is empty (10_state.md R37), at most two
blocks, and two only of a `FINALIZE` (42_compression.md R160). -/
def State.QueueInv (s : State) : Prop :=
  (s.estate = .idle ↔ s.jq = []) ∧ s.jq.length ≤ 2 ∧ (s.phase ≠ .finalized → s.jq.length ≤ 1)

/-- The lifecycle and the counters: `PHASE = 3` and the error codes 3, 6, 7 are never held (10_state.md R29,
60_exceptions.md R261); while `ACTIVE` the counter is a multiple of 512 and the message is at most
`2^64 − 8` bits (10_state.md R27, R28); outside `ACTIVE` nothing is buffered; in `IDLE` nothing has been
taken in (44_digest_forgery.md R211, 70_reset_and_hazards.md R293). -/
def State.ContextInv (s : State) : Prop :=
  s.phase ≠ .illegal ∧ s.err ≠ .invalidArgument ∧ s.err ≠ .code6 ∧ s.err ≠ .code7 ∧
  (s.phase = .active → s.totalbits.toNat % 512 = 0 ∧ s.totalbits.toNat + 8 * s.bufcnt.toNat ≤ 2 ^ 64 - 8) ∧
  (s.phase ≠ .active → s.bufcnt = 0) ∧
  (s.phase = .idle → s.v = Vector.replicate 8 0 ∧ s.totalbits = 0 ∧ s.jq = [])

/-- The padding outputs: a length of 0 or 9 to 72 (10_state.md R33, 30_encoding.md R99), and `PAD18` to
`PAD31` zero (30_encoding.md R97). -/
def State.PadInv (s : State) : Prop :=
  (s.padLen = 0 ∨ 9 ≤ s.padLen.toNat ∧ s.padLen.toNat ≤ 72) ∧
  ∀ k : Fin 32, 18 ≤ k.val → s.pad[k] = 0

/-- The engine's registers inside a job: in round `j` they hold the expansion of the head block, the result
of the rounds before `j` and `T'j` (42_compression.md R152, R164, R165); before FEED, that of all 64. -/
def State.EngineInv (s : State) : Prop :=
  ∀ blk rest, s.jq = blk :: rest →
    (s.estate = .round →
      s.w = expandW blk ∧ s.wp = expandWp s.w ∧ s.tj = roundConstant s.j ∧
      s.regs = roundsUpTo s.w s.wp (workingOf s.v) s.j.toNat) ∧
    (s.estate = .feed → s.regs = roundsUpTo (expandW blk) (expandWp (expandW blk)) (workingOf s.v) 64)

/-- The invariant of the core. -/
def State.Inv (s : State) : Prop := s.QueueInv ∧ s.ContextInv ∧ s.PadInv ∧ s.EngineInv

/-- The engine micro-steps the job still needs in the reference schedule (42_compression.md R163). -/
def State.microStepsLeft (s : State) : Nat :=
  match s.estate with
  | .idle => 0
  | .load => Config.microStepsPerBlock * s.jq.length
  | .round => Config.microStepsPerBlock * s.jq.length - 1 - s.j.toNat
  | .feed => Config.microStepsPerBlock * s.jq.length - 65

/-- The full 64-byte blocks of a byte string, in order. -/
def fullBlocks (m : List Byte) : List Block :=
  (List.range (m.length / 64)).map fun i => blockOfBytes ((m.drop (64 * i)).take 64)

/-- The digest words of a message that continues the chaining value `h` after `seed` bytes: the message and
its padding, compressed block by block (43_stream_padding.md R188, R190; 42_compression.md R154). -/
def hashFrom (h : Chain) (seed : Nat) (m : List Byte) : Chain :=
  (fullBlocks (m ++ padBytes (seed + m.length))).foldl compress h

/-- The hash of a message: from the initial vector, with nothing before it (43_stream_padding.md R192). -/
def hashWords (m : List Byte) : Chain := hashFrom iv 0 m

/-- The context of `s` was created with chaining value `h` and `seed` bytes before it, and has taken in the
message `m`: the full blocks of `m` are compressed or queued, the rest is buffered, and the counters say so
(10_state.md R25, R27; 43_stream_padding.md R183). -/
def State.HoldsMessage (s : State) (h : Chain) (seed : Nat) (m : List Byte) : Prop :=
  s.phase = .active ∧
  s.eventual = (fullBlocks m).foldl compress h ∧
  s.buffered = m.drop (64 * (m.length / 64)) ∧
  s.bufcnt.toNat = m.length % 64 ∧
  s.totalbits.toNat = 8 * seed + 512 * (m.length / 64)

/-- A run of `n` steps from `s` is safe: it meets no fault (60_exceptions.md R268). A refused access ends
the run and is no fault of the core. -/
def SafeFor (n : Nat) (s : State) : Prop := ∀ f, Host.Core.run core n s ≠ .fault f

end Sys2Proof.Machine
end

