-- ==== Sys2Proof/Certificates/Slice0/Obligations.lean ====
section
/-! DEFINITION. The statements for the provers. Each docstring says which rule of spec/ it formalises, or what
it rests on. -/

open Sys2Proof Sys2Proof.Machine

/-! ## Encoding -/

/-- 30_encoding.md R90, R92, R96: no field of an operation is lost in its `BUS41` word. -/
def Obligations.DecodeOfEncodeIsIdentity : Prop :=
  ∀ i : Instr, i.wellFormed = true → decode (encode i) = .ok i

/-- 30_encoding.md R91: a decoded word is canonical but for the data field of a read, which counts as 0. -/
def Obligations.EncodeOfDecodeIsCanonicalWord : Prop :=
  ∀ (t : BusWord) (i : Instr), decode t = .ok i →
    i.wellFormed = true ∧
    encode i = busWord (busDir t) (busOff t) (match busDir t with | .rd => 0 | .wr => busData t)

/-- 30_encoding.md R92, R103: every aligned word decodes, the decoded operation's row of the opcode table
covers it, and the only other row that can is the reserved-command row, with the shorter mask. -/
def Obligations.EveryAlignedWordHasOneTableRow : Prop :=
  ∀ t : BusWord, (busOff t).extractLsb' 0 2 = 0 →
    ∃ i : Instr, decode t = .ok i ∧ i.row.covers t = true ∧
      ∀ k : Instr, k.row.covers t = true →
        k.row = i.row ∨
        (k.row = (Instr.wrCmdReserved 0).row ∧ i.row.mask = 0x1FFFFFFFFFF)

/-- Words of 95_test_vectors.md and of the encodings of 30_encoding.md and 44_digest_forgery.md. -/
def Obligations.SpecWordsDecodeAsListed : Prop :=
  decodeTableWord 48 0x10000000003 = some .wrCmdForgeInit ∧
  decodeTableWord 48 0x10000000105 = some (.wrCmdReserved 0x105) ∧
  decodeTableWord 48 0x10800000061 = some (.wrDinByte 0x61) ∧
  decodeTableWord 48 0x15C8F4BA8E0 = some (.wrFdig 7 0x8F4BA8E0) ∧
  decodeTableWord 48 0x03C00000000 = some (.rdDigest 7) ∧
  decodeTableWord 48 0x0BC00000000 = some (.rdPad 15) ∧
  decodeTableWord 48 0x104FFFFFFFF = some (.wrStatus 0xFFFFFFFF) ∧
  decodeTableWord 48 0x17C00000001 = some (.rsvd70 .wr 3 1) ∧
  decodeTableWord 48 0x10100000000 = none

/-- 00_scope.md R12, 30_encoding.md R90: `MemRead(BASE + off, 4)` is `RD off` and `MemWrite(BASE + off, 4, v)`
is `WR off, v`, with `T = dir·2^40 + off·2^32 + data`; an access at any address outside the 256-byte window
reaches nothing, whatever its direction, width and data. -/
def Obligations.BusAddressReachesItsOffset : Prop :=
  ∀ (k : Nat) (off : BitVec 8) (v : Word),
    (∃ a, memWrite k (Config.base k + off.toNat) 4 v = some ⟨4, a⟩ ∧
      a.toNat = 2 ^ 40 + off.toNat * 2 ^ 32 + v.toNat) ∧
    (∃ a, memRead k (Config.base k + off.toNat) 4 = some ⟨4, a⟩ ∧ a.toNat = off.toNat * 2 ^ 32) ∧
    (∀ addr bytes : Nat, addr < Config.base k ∨ Config.base k + 256 ≤ addr →
      inWindow k addr = false ∧ memRead k addr bytes = none ∧ memWrite k addr bytes v = none)

/-- 30_encoding.md R95, R101, R102: a line with a register or command name is the operation of that name, and
each pseudo-operation is the list of operations of its row, `FEED` included: whole groups of four bytes first,
then single bytes. How often a `WAIT` loop reads `STATUS` is an argument (log entry 14). -/
def Obligations.AssemblerLinesDecodeToNamedOperations : Prop :=
  (∀ n : CommandName, decode (asmWr .cmd n.code) =
    .ok (match n with
      | .init => .wrCmdInit | .finalize => .wrCmdFinalize
      | .forgeInit => .wrCmdForgeInit | .clearErr => .wrCmdClearErr)) ∧
  (∀ (r : RegName) (v : Word), r ≠ .cmd → decode (asmWr r v) =
    .ok (match r with
      | .cmd => .wrCmdReserved v
      | .status => .wrStatus v
      | .dinByte => .wrDinByte v
      | .dinWord => .wrDinWord v
      | .totalbitsLo => .wrTotalbitsLo v
      | .totalbitsHi => .wrTotalbitsHi v
      | .flenLo => .wrFlenLo v
      | .flenHi => .wrFlenHi v
      | .digest i => .wrDigest i v
      | .fdig i => .wrFdig i v
      | .padLen => .wrPadLen v
      | .pad k => .wrPad k v)) ∧
  (∀ r : RegName, decode (asmRd r) =
    .ok (match r with
      | .cmd => .rdCmd
      | .status => .rdStatus
      | .dinByte => .rdDinByte
      | .dinWord => .rdDinWord
      | .totalbitsLo => .rdTotalbitsLo
      | .totalbitsHi => .rdTotalbitsHi
      | .flenLo => .rdFlenLo
      | .flenHi => .rdFlenHi
      | .digest i => .rdDigest i
      | .fdig i => .rdFdig i
      | .padLen => .rdPadLen
      | .pad k => .rdPad k)) ∧
  (∀ n : CommandName, (Pseudo.cmd n).expand = [asmWr .cmd n.code]) ∧
  (∀ n : Nat, (Pseudo.wait n).expand.map decode = List.replicate (n + 1) (.ok .rdStatus)) ∧
  (∀ (w : Word) (n : Nat), (Pseudo.feedw w n).expand.map decode =
    .ok (.wrDinWord w) :: List.replicate (n + 1) (.ok .rdStatus)) ∧
  (∀ (b : Byte) (n : Nat), (Pseudo.feedb b n).expand.map decode =
    .ok (.wrDinByte (BitVec.ofNat 32 b.toNat)) :: List.replicate (n + 1) (.ok .rdStatus)) ∧
  (∀ ns : List Nat, (Pseudo.feed [] ns).expand = []) ∧
  (∀ (b0 b1 b2 b3 : Byte) (rest : List Byte) (n : Nat) (ns : List Nat),
    (Pseudo.feed (b0 :: b1 :: b2 :: b3 :: rest) (n :: ns)).expand =
      (Pseudo.feedw (be32 b0 b1 b2 b3) n).expand ++ (Pseudo.feed rest ns).expand) ∧
  (∀ (b : Byte) (rest : List Byte) (n : Nat) (ns : List Nat), rest.length < 3 →
    (Pseudo.feed (b :: rest) (n :: ns)).expand = (Pseudo.feedb b n).expand ++ (Pseudo.feed rest ns).expand) ∧
  (∀ len : BitVec 64, (Pseudo.setlen len).expand.map decode =
    [.ok (.wrFlenLo (BitVec.ofNat 32 len.toNat)), .ok (.wrFlenHi (BitVec.ofNat 32 (len.toNat / 2 ^ 32)))]) ∧
  (∀ ws : Chain, (Pseudo.setfdig ws).expand.map decode =
    [.ok (.wrFdig 0 ws[0]), .ok (.wrFdig 1 ws[1]), .ok (.wrFdig 2 ws[2]), .ok (.wrFdig 3 ws[3]),
     .ok (.wrFdig 4 ws[4]), .ok (.wrFdig 5 ws[5]), .ok (.wrFdig 6 ws[6]), .ok (.wrFdig 7 ws[7])]) ∧
  Pseudo.readdigest.expand.map decode =
    [.ok (.rdDigest 0), .ok (.rdDigest 1), .ok (.rdDigest 2), .ok (.rdDigest 3),
     .ok (.rdDigest 4), .ok (.rdDigest 5), .ok (.rdDigest 6), .ok (.rdDigest 7)] ∧
  Pseudo.readpad.expand.map decode =
    [.ok .rdPadLen, .ok (.rdPad 0), .ok (.rdPad 1), .ok (.rdPad 2), .ok (.rdPad 3), .ok (.rdPad 4),
     .ok (.rdPad 5), .ok (.rdPad 6), .ok (.rdPad 7), .ok (.rdPad 8), .ok (.rdPad 9), .ok (.rdPad 10),
     .ok (.rdPad 11), .ok (.rdPad 12), .ok (.rdPad 13), .ok (.rdPad 14), .ok (.rdPad 15), .ok (.rdPad 16),
     .ok (.rdPad 17)] ∧
  (∀ p : Pseudo, ∀ t ∈ p.expand, ∃ i, decode t = .ok i ∧ encode i = t)

/-! ## The step -/

/-- A turn of the host runs the decoded operation at the state whose script has lost that turn
(20_memory.md R73); a word placed by `withFetchWord` is the next such turn (log entry 2). -/
def Obligations.StepRunsTheDecodedOperation : Prop :=
  (∀ (s : State) (a : BusAccess) (rest : List Turn) (i : Instr),
    s.inconsistency = none → s.script = .host a :: rest → decodeAccess a.bytes a.word = .ok i →
    step s = exec i { s with script := rest }) ∧
  (∀ (s : State) (nbits w : Nat) (i : Instr),
    s.inconsistency = none → decodeTableWord nbits w = some i →
    step (s.withFetchWord nbits w) = exec i s)

/-- 20_memory.md R67: an access of another width, or at an offset with `off[1:0] ≠ 0`, is refused. The names of
the refusals, and that a misaligned access of another width is refused for its width, are the model's (log
entry 10). -/
def Obligations.MisalignedOrNarrowAccessIsRefused : Prop :=
  ∀ (s : State) (a : BusAccess) (rest : List Turn),
    s.inconsistency = none → s.script = .host a :: rest →
    (a.bytes ≠ 4 → step s = .refused (.badWidth a.bytes)) ∧
    (a.bytes = 4 → (busOff a.word).extractLsb' 0 2 ≠ 0 → step s = .refused (.misaligned (busOff a.word)))

/-- An engine turn takes its number of micro-steps; with no turn placed the engine, if it has a step, takes one, and an
idle core waits (42_compression.md R161, R162; the script is the model's own, log entries 1 and 5). -/
def Obligations.StepGivesTheEngineItsTurn : Prop :=
  ∀ s : State, s.inconsistency = none →
    (∀ n rest, s.script = .engine n :: rest → step s = engineTurn n { s with script := rest }) ∧
    (∀ rest, s.script = .engine 1 :: rest → step s = microStep { s with script := rest }) ∧
    (s.script = [] → s.busy = true → step s = microStep s) ∧
    (s.script = [] → s.busy = false → step s = .next s)

/-- 70_reset_and_hazards.md R290: a reset turn, in any state whatever, gives every piece of state of the
instance its reset value; a job in progress is lost and `STATUS` is 0. That the turns still to come stay is
the model's choice (log entries 1 and 3). -/
def Obligations.ResetTurnClearsTheInstance : Prop :=
  ∀ (s : State) (rest : List Turn), s.script = .reset :: rest →
    ∃ t, step s = .next t ∧
      t.v = Vector.replicate 8 0 ∧ t.buf = Vector.replicate 64 0 ∧ t.bufcnt = 0 ∧ t.totalbits = 0 ∧
      t.phase = .idle ∧ t.fdig = Vector.replicate 8 0 ∧ t.flen = 0 ∧ t.padLen = 0 ∧
      t.pad = Vector.replicate 32 0 ∧ t.err = .none ∧ t.estate = .idle ∧ t.jq = [] ∧ t.j = 0 ∧
      t.regs = ⟨0, 0, 0, 0, 0, 0, 0, 0⟩ ∧ t.tj = 0 ∧ t.w = Vector.replicate 68 0 ∧
      t.wp = Vector.replicate 64 0 ∧ t.statusWord = 0 ∧ t.script = rest

/-- 70_reset_and_hazards.md R293: after reset every register the host can read returns 0, so the initial
vector is not visible. -/
def Obligations.EveryReadAfterResetReturnsZero : Prop :=
  ∀ i : Instr, i.dir = .rd → ∃ t, exec i State.reset = .next t ∧ t.rdata = 0 ∧ t.v = State.reset.v

/-- 60_exceptions.md R268, 93_implementation_defined.md rows 10 and 11: in an inconsistent state no host
operation and no engine step is defined; the step is a fault unless it is a reset. That `step` makes the check
is the model's reading (log entry 6). -/
def Obligations.InconsistentStateStopsUnlessReset : Prop :=
  ∀ s : State,
    (s.jq.length > 2 ∨ (s.estate = .load ∧ s.jq = []) ∨ s.phase = .illegal ∨ s.err = .code6 ∨ s.err = .code7) →
    (∀ rest, s.script ≠ .reset :: rest) →
    ∃ f, step s = .fault f

/-! ## Invariants -/

/-- The invariant holds after reset. -/
def Obligations.ResetStateSatisfiesTheInvariant : Prop := State.reset.Inv

/-- Every step keeps the invariant: the bookkeeping of the queue (10_state.md R37, 42_compression.md R160),
the lifecycle and the counters (10_state.md R26 to R30), the padding outputs (10_state.md R33), and the
engine's registers inside a job (42_compression.md R152, R164, R165). -/
def Obligations.EveryStepKeepsTheInvariant : Prop :=
  ∀ s t : State, s.Inv → step s = .next t → t.Inv

/-- 60_exceptions.md R268, 42_compression.md R169: the internal-consistency fault is unreachable. -/
def Obligations.NoRunFromTheInvariantFaults : Prop :=
  ∀ (s : State) (n : Nat), s.Inv → SafeFor n s

/-! ## Errors and the busy rule -/

/-- No check is a trap: every host operation completes in every state (60_exceptions.md R260). "Every state"
takes in the inconsistent states of R268: that the operation itself answers there, the check standing in
`step`, is the model's reading (log entry 6). -/
def Obligations.EveryHostOperationCompletes : Prop :=
  ∀ (i : Instr) (s : State), ∃ t, exec i s = .next t

/-- 60_exceptions.md R262: `ERR` is sticky. An operation other than `CLEAR_ERR` changes `ERR` only from
`NONE`, and one that does changes nothing else. -/
def Obligations.ErrorIsStickyAndHasNoOtherEffect : Prop :=
  ∀ (i : Instr) (s t : State), exec i s = .next t → i ≠ .wrCmdClearErr → t.err ≠ s.err →
    s.err = .none ∧ t = { s with err := t.err }

/-- 45_control.md R245: while busy, a write to `CMD` other than `CLEAR_ERR`, to `DIN_BYTE`, `DIN_WORD`,
`FLEN_LO`, `FLEN_HI` or `FDIGi` raises `BUSY` and has no other effect; `CLEAR_ERR` is accepted, and writes to
read-only and reserved slots are not affected. -/
def Obligations.BusyWriteIsRejected : Prop :=
  ∀ (s : State) (d : Word) (k : BitVec 3) (l : BitVec 5) (a : BitVec 1) (b : BitVec 2), s.busy = true →
    (∀ i ∈ [Instr.wrCmdInit, .wrCmdFinalize, .wrCmdForgeInit, .wrCmdReserved d, .wrDinByte d, .wrDinWord d,
        .wrFlenLo d, .wrFlenHi d, .wrFdig k d],
      exec i s = .next { s with err := if s.err = .none then .busy else s.err }) ∧
    exec .wrCmdClearErr s = .next { s with err := .none } ∧
    (∀ i ∈ [Instr.wrStatus d, .wrTotalbitsLo d, .wrTotalbitsHi d, .wrDigest k d, .wrPadLen d, .wrPad l d,
        .rsvd64 .wr d, .rsvd68 .wr a d, .rsvd70 .wr b d],
      exec i s = .next s)

/-- 45_control.md R246: while busy, a read other than `RD STATUS` returns the next free value and has no
side effect. The value is `Config.busyRead`, of which nothing is known (log entry 4). -/
def Obligations.BusyReadReturnsAFreeValue : Prop :=
  ∀ (s : State) (i : Instr), s.busy = true → i.dir = .rd → i ≠ .rdStatus →
    exec i s = .next { s with rdata := Config.busyRead s.draws, draws := s.draws + 1 }

/-- 45_control.md R247: writes to read-only and reserved slots are ignored, busy or not; reads of write-only
and reserved slots return 0 when not busy, and a free value while busy (log entry 4). -/
def Obligations.AccessesToNoOrdinaryRegister : Prop :=
  ∀ (s : State) (d : Word) (i3 : BitVec 3) (i5 : BitVec 5) (a : BitVec 1) (b : BitVec 2),
    (∀ i ∈ [Instr.wrStatus d, .wrTotalbitsLo d, .wrTotalbitsHi d, .wrDigest i3 d, .wrPadLen d, .wrPad i5 d,
        .rsvd64 .wr d, .rsvd68 .wr a d, .rsvd70 .wr b d],
      exec i s = .next s) ∧
    (∀ i ∈ [Instr.rdCmd, .rdDinByte, .rdDinWord, .rsvd64 .rd d, .rsvd68 .rd a d, .rsvd70 .rd b d],
      exec i s = .next (if s.busy then { s with rdata := Config.busyRead s.draws, draws := s.draws + 1 }
        else { s with rdata := 0 }))

/-- 20_memory.md R70: no read has a side effect on the core (`rdata` and `draws` are the model's own). -/
def Obligations.ReadsHaveNoSideEffect : Prop :=
  ∀ (i : Instr) (s t : State), i.dir = .rd → exec i s = .next t →
    t = { s with rdata := t.rdata, draws := t.draws }

/-- 45_control.md R243: `CLEAR_ERR` sets `ERR` to `NONE`, in every phase and also while busy, and changes
nothing else; only the exact word is `CLEAR_ERR`. -/
def Obligations.ClearErrClearsTheErrorOnly : Prop :=
  (∀ s : State, exec .wrCmdClearErr s = .next { s with err := .none }) ∧
  decode 0x10000000004 = .ok .wrCmdClearErr ∧
  (∀ data : Word, decode (busWord .wr 0 data) = .ok .wrCmdClearErr ↔ data = 0x00000004) ∧
  (∀ s : State, decode 0x10000000104 = .ok (.wrCmdReserved 0x104) ∧
    exec (.wrCmdReserved 0x104) s = .next { s with
      err := if s.err = .none then (if s.busy then .busy else .badCommand) else s.err })

/-- 45_control.md R240, R244: the order in which a `WR CMD` is decoded: `CLEAR_ERR`, the busy check, reserved
words, then the three commands (whose effects other statements give). -/
def Obligations.CommandWriteIsDecodedInOrder : Prop :=
  ∀ (s : State) (data : Word),
    ∃ i, decode (busWord .wr 0 data) = .ok i ∧
      (data = 4 → exec i s = .next { s with err := .none }) ∧
      (data ≠ 4 → s.busy = true → exec i s = .next { s with err := if s.err = .none then .busy else s.err }) ∧
      (s.busy = false →
        (data.extractLsb' 8 24 ≠ 0 ∨
          (data.extractLsb' 0 8 ≠ 1 ∧ data.extractLsb' 0 8 ≠ 2 ∧ data.extractLsb' 0 8 ≠ 3 ∧
            data.extractLsb' 0 8 ≠ 4)) →
        i = .wrCmdReserved data ∧
        exec i s = .next { s with err := if s.err = .none then .badCommand else s.err }) ∧
      (data = 1 → i = .wrCmdInit) ∧ (data = 2 → i = .wrCmdFinalize) ∧ (data = 3 → i = .wrCmdForgeInit)

/-! ## Reads -/

/-- 45_control.md R241, 30_encoding.md R98: `RD STATUS` returns `BUSY + 2·PHASE + 16·ERR + 256·BUFCNT`, busy
or not, and changes nothing. -/
def Obligations.StatusReadReturnsTheSum : Prop :=
  decode 0x00400000000 = .ok .rdStatus ∧
  ∀ s : State, ∃ t, exec .rdStatus s = .next t ∧ t = { s with rdata := t.rdata } ∧
    t.rdata.toNat = (if s.estate = .idle then 0 else 1) + 2 * s.phase.code.toNat + 16 * s.err.code.toNat +
      256 * s.bufcnt.toNat

/-- 45_control.md R242, 44_digest_forgery.md R220: the two halves of `TOTALBITS` and of `FLEN`, read while
not busy, are those of the 64-bit registers. -/
def Obligations.HalvesReadGiveTheWholeRegister : Prop :=
  ∀ s : State, s.busy = false →
    (∃ lo hi : Word, exec .rdTotalbitsLo s = .next { s with rdata := lo } ∧
      exec .rdTotalbitsHi s = .next { s with rdata := hi } ∧
      hi.toNat * 2 ^ 32 + lo.toNat = s.totalbits.toNat) ∧
    (∃ lo hi : Word, exec .rdFlenLo s = .next { s with rdata := lo } ∧
      exec .rdFlenHi s = .next { s with rdata := hi } ∧
      hi.toNat * 2 ^ 32 + lo.toNat = s.flen.toNat)

/-- 44_digest_forgery.md R211, R212: `RD DIGESTi`, in every phase while not busy, returns the word that holds
digest bytes `4i` to `4i + 3`, most significant byte first. -/
def Obligations.DigestReadReturnsItsFourBytes : Prop :=
  ∀ (s : State) (i : BitVec 3), s.busy = false →
    ∃ w : Word, exec (.rdDigest i) s = .next { s with rdata := w } ∧ s.v[i.toNat]? = some w ∧
      ((digest s.v).drop (4 * i.toNat)).take 4 =
        [w.extractLsb' 24 8, w.extractLsb' 16 8, w.extractLsb' 8 8, w.extractLsb' 0 8]

/-- 44_digest_forgery.md R218, R220: `RD FDIGi` returns `FDIG[i]`; a written `FDIGi` reads back, the other
`FDIG` registers and all other state stay. -/
def Obligations.FdigReadsBackWhatWasWritten : Prop :=
  ∀ (s : State) (i : BitVec 3) (d : Word), s.busy = false →
    (∃ w, exec (.rdFdig i) s = .next { s with rdata := w } ∧ s.fdig[i.toNat]? = some w) ∧
    ∃ t, exec (.wrFdig i d) s = .next t ∧ t = { s with fdig := t.fdig } ∧
      exec (.rdFdig i) t = .next { t with rdata := d } ∧
      ∀ k : BitVec 3, k ≠ i → exec (.rdFdig k) t = .next { t with rdata := bankWord s.fdig k }

/-- 44_digest_forgery.md R218, R220, 20_memory.md R69: a written half of `FLEN` reads back, the other half
and all other state stay. -/
def Obligations.FlenReadsBackWhatWasWritten : Prop :=
  ∀ (s : State) (d : Word), s.busy = false →
    (∃ t, exec (.wrFlenLo d) s = .next t ∧ t = { s with flen := t.flen } ∧
      t.flen.toNat = s.flen.toNat / 2 ^ 32 * 2 ^ 32 + d.toNat ∧
      exec .rdFlenLo t = .next { t with rdata := d }) ∧
    (∃ t, exec (.wrFlenHi d) s = .next t ∧ t = { s with flen := t.flen } ∧
      t.flen.toNat = d.toNat * 2 ^ 32 + s.flen.toNat % 2 ^ 32 ∧
      exec .rdFlenHi t = .next { t with rdata := d })

/-- 44_digest_forgery.md R219, 30_encoding.md R97, R99: `RD PAD_LEN` returns the 7-bit length, `RD PADk`
returns `PAD[k]` for k = 0..17, and `PAD18` to `PAD31` read 0 (hardwired, log entry 8). -/
def Obligations.PaddingReadsReturnTheStore : Prop :=
  ∀ (s : State) (k : BitVec 5), s.busy = false →
    (∃ w : Word, exec .rdPadLen s = .next { s with rdata := w } ∧ w.toNat = s.padLen.toNat) ∧
    (∃ w : Word, exec (.rdPad k) s = .next { s with rdata := w } ∧
      (k.toNat < 18 → s.pad[k.toNat]? = some w) ∧ (18 ≤ k.toNat → w = 0) ∧
      (s.PadInv → s.pad[k.toNat]? = some w))

/-! ## Contexts -/

/-- 43_stream_padding.md R182: `INIT`, in every phase; no other command word is `INIT`. -/
def Obligations.InitStartsAFreshContext : Prop :=
  decode 0x10000000001 = .ok .wrCmdInit ∧
  (∀ data : Word, decode (busWord .wr 0 data) = .ok .wrCmdInit → data = 0x00000001) ∧
  ∀ s : State,
    (s.busy = true → exec .wrCmdInit s = .next { s with err := if s.err = .none then .busy else s.err }) ∧
    (s.busy = false → exec .wrCmdInit s = .next { s with
      v := #v[0x7380166f, 0x4914b2b9, 0x172442d7, 0xda8a0600, 0xa96f30bc, 0x163138aa, 0xe38dee4d, 0xb0fb0e4e]
      totalbits := 0
      bufcnt := 0
      phase := .active })

/-- 44_digest_forgery.md R215, R216, R217: `FORGE_INIT`, in every phase, with the exact limit on `FLEN`, the
seeded counter, and the padding bytes; a rejected one changes nothing but `ERR`. -/
def Obligations.ForgeInitStartsAForgedContext : Prop :=
  decode 0x10000000003 = .ok .wrCmdForgeInit ∧
  ∀ s : State,
    (paddedBits s.flen.toNat ≤ 2 ^ 64 - 512 ↔ s.flen.toNat ≤ 0x1fffffffffffffb7) ∧
    (s.busy = true → exec .wrCmdForgeInit s = .next { s with err := if s.err = .none then .busy else s.err }) ∧
    (s.busy = false → 0x1fffffffffffffb7 < s.flen.toNat →
      exec .wrCmdForgeInit s = .next { s with err := if s.err = .none then .lengthOverflow else s.err }) ∧
    (s.busy = false → s.flen.toNat ≤ 0x1fffffffffffffb7 →
      ∃ t, exec .wrCmdForgeInit s = .next t ∧
        t = { s with v := s.fdig, totalbits := t.totalbits, bufcnt := 0, phase := .active,
                     padLen := t.padLen, pad := t.pad } ∧
        t.totalbits.toNat = 512 * ((8 * s.flen.toNat + 64) / 512 + 1) ∧
        t.padLen.toNat = t.totalbits.toNat / 8 - s.flen.toNat ∧
        unwords t.pad.toList =
          padBytes s.flen.toNat ++ List.replicate (128 - padLength s.flen.toNat) 0)

/-- 44_digest_forgery.md R214: the padding arithmetic. -/
def Obligations.PaddingArithmetic : Prop :=
  ∀ n : Nat,
    (512 ∣ paddedBits n ∧ 8 * n + 65 ≤ paddedBits n ∧ ∀ m, 512 ∣ m → 8 * n + 65 ≤ m → paddedBits n ≤ m) ∧
    8 * (n + padLength n) = paddedBits n ∧
    padLength n = (if n % 64 < 56 then 64 - n % 64 else 128 - n % 64) ∧
    9 ≤ padLength n ∧ padLength n ≤ 72 ∧
    (padBytes n).length = padLength n ∧
    padBytes n = [0x80] ++ List.replicate (padLength n - 9) 0 ++ be64 (BitVec.ofNat 64 (8 * n))

/-! ## Data writes -/

/-- 43_stream_padding.md R180, R184 to R186, 60_exceptions.md R267: the checks of a data write of n bytes, in
order; a rejected write changes nothing but `ERR`. -/
def Obligations.DataWriteChecksInOrder : Prop :=
  ∀ (s : State) (d : Word) (i : Instr) (n : Nat),
    (i = .wrDinByte d ∧ n = 1 ∨ i = .wrDinWord d ∧ n = 4) →
    (s.busy = true → exec i s = .next { s with err := if s.err = .none then .busy else s.err }) ∧
    (s.busy = false → s.phase ≠ .active →
      exec i s = .next { s with err := if s.err = .none then .invalidState else s.err }) ∧
    (s.busy = false → s.phase = .active → 2 ^ 64 - 1 < s.totalbits.toNat + 8 * (s.bufcnt.toNat + n) →
      exec i s = .next { s with err := if s.err = .none then .lengthOverflow else s.err })

/-- 43_stream_padding.md R183, R184: an accepted `WR DIN_BYTE` buffers its byte, and the 64th byte dispatches
the block. -/
def Obligations.DinByteAbsorbsOneByte : Prop :=
  ∀ (s : State) (d : Word), s.busy = false → s.phase = .active →
    s.totalbits.toNat + 8 * (s.bufcnt.toNat + 1) ≤ 2 ^ 64 - 1 →
    ∃ t, exec (.wrDinByte d) s = .next t ∧
      t.buf = s.buf.set s.bufcnt.toNat (d.setWidth 8) s.bufcnt.isLt ∧
      (s.bufcnt.toNat < 63 →
        t = { s with buf := t.buf, bufcnt := t.bufcnt } ∧ t.bufcnt.toNat = s.bufcnt.toNat + 1) ∧
      (s.bufcnt.toNat = 63 →
        t = { s with buf := t.buf, bufcnt := 0, totalbits := t.totalbits, jq := s.jq ++ [t.buf],
                     estate := .load } ∧
        t.totalbits.toNat = s.totalbits.toNat + 512)

/-- 43_stream_padding.md R185: an accepted `WR DIN_WORD` takes its four bytes in stream order in one step;
from `BUFCNT = 60` on it completes a block. -/
def Obligations.DinWordAbsorbsFourBytes : Prop :=
  ∀ (s : State) (d : Word), s.busy = false → s.phase = .active →
    s.totalbits.toNat + 8 * (s.bufcnt.toNat + 4) ≤ 2 ^ 64 - 1 →
    ∃ t, exec (.wrDinWord d) s = .next t ∧
      t.bufcnt.toNat = (s.bufcnt.toNat + 4) % 64 ∧
      (s.bufcnt.toNat < 60 →
        t = { s with buf := t.buf, bufcnt := t.bufcnt } ∧ t.buffered = s.buffered ++ bytes32 d) ∧
      (60 ≤ s.bufcnt.toNat → ∃ blk : Block,
        t = { s with buf := t.buf, bufcnt := t.bufcnt, totalbits := t.totalbits, jq := s.jq ++ [blk],
                     estate := .load } ∧
        t.totalbits.toNat = s.totalbits.toNat + 512 ∧
        blk.toList ++ t.buffered = s.buffered ++ bytes32 d)

/-! ## FINALIZE -/

/-- 43_stream_padding.md R188, R189: `FINALIZE`: the checks, the padded blocks by the count before the `0x80`
byte, the counters and the phase. -/
def Obligations.FinalizeQueuesThePaddedBlocks : Prop :=
  decode 0x10000000002 = .ok .wrCmdFinalize ∧
  ∀ s : State,
    (s.Inv → s.phase = .active → s.totalbits.toNat + 8 * s.bufcnt.toNat ≤ 2 ^ 64 - 1) ∧
    (s.busy = true → exec .wrCmdFinalize s = .next { s with err := if s.err = .none then .busy else s.err }) ∧
    (s.busy = false → s.phase ≠ .active →
      exec .wrCmdFinalize s = .next { s with err := if s.err = .none then .invalidState else s.err }) ∧
    (s.busy = false → s.phase = .active → s.totalbits.toNat + 8 * s.bufcnt.toNat ≤ 2 ^ 64 - 1 →
      ∃ t blocks, exec .wrCmdFinalize s = .next t ∧
        t = { s with totalbits := t.totalbits, jq := s.jq ++ blocks, estate := .load, bufcnt := 0,
                     phase := .finalized } ∧
        t.totalbits.toNat = s.totalbits.toNat + 8 * s.bufcnt.toNat ∧
        (s.bufcnt.toNat ≤ 55 → ∃ b1 : Block, blocks = [b1] ∧
          b1.toList = s.buffered ++ [0x80] ++ List.replicate (55 - s.bufcnt.toNat) 0 ++ be64 t.totalbits) ∧
        (56 ≤ s.bufcnt.toNat → ∃ b1 b2 : Block, blocks = [b1, b2] ∧
          b1.toList = s.buffered ++ [0x80] ++ List.replicate (63 - s.bufcnt.toNat) 0 ∧
          b2.toList = List.replicate 56 0 ++ be64 t.totalbits))

/-- 43_stream_padding.md R190: what `FINALIZE` appends to a message of `n` bytes is `pad(n)`, and the padded
stream ends with `be64(8n)`. -/
def Obligations.FinalizeAppendsThePadding : Prop :=
  ∀ (s : State) (n : Nat), s.busy = false → s.phase = .active → 8 * n < 2 ^ 64 →
    s.totalbits.toNat + 8 * s.bufcnt.toNat = 8 * n → s.totalbits.toNat % 512 = 0 →
    ∃ t blocks, exec .wrCmdFinalize s = .next t ∧ t.jq = s.jq ++ blocks ∧
      blocks.flatMap (fun b => b.toList) = s.buffered ++ padBytes n ∧
      (8 * (n + (padBytes n).length)) % 512 = 0 ∧
      (padBytes n).drop ((padBytes n).length - 8) = be64 t.totalbits ∧ t.totalbits.toNat = 8 * n

/-! ## Primitives and the compression function -/

/-- 40_primitives.md R120 to R124: the primitives bit by bit. -/
def Obligations.PrimitivesBitByBit : Prop :=
  ∀ (x y z : Word) (n k : Nat), k < 32 →
    (rotl32 x n).getLsbD k = x.getLsbD ((k + 32 - n % 32) % 32) ∧
    (ff0 x y z).getLsbD k = ((x.getLsbD k != y.getLsbD k) != z.getLsbD k) ∧
    gg0 x y z = ff0 x y z ∧
    (ff1 x y z).getLsbD k = Bool.atLeastTwo (x.getLsbD k) (y.getLsbD k) (z.getLsbD k) ∧
    (gg1 x y z).getLsbD k = (if x.getLsbD k then y.getLsbD k else z.getLsbD k)

/-- 40_primitives.md R125, R126: `P0` and `P1` by their formulas, and linear over exclusive-or. -/
def Obligations.PermutationsAreLinear : Prop :=
  ∀ x y : Word,
    p0 x = x ^^^ x.rotateLeft 9 ^^^ x.rotateLeft 17 ∧ p1 x = x ^^^ x.rotateLeft 15 ^^^ x.rotateLeft 23 ∧
    p0 (x ^^^ y) = p0 x ^^^ p0 y ∧ p1 (x ^^^ y) = p1 x ^^^ p1 y

/-- 40_primitives.md R131: the endian normalizer and its inverse. -/
def Obligations.WordsAndUnwordsAreInverse : Prop :=
  (∀ s : List Byte, s.length % 4 = 0 → unwords (words s) = s) ∧ (∀ w : List Word, words (unwords w) = w)

/-- 40_primitives.md R130, R132: the values of `be32` and `be64`. -/
def Obligations.BigEndianValues : Prop :=
  (∀ b0 b1 b2 b3 : Byte,
    (be32 b0 b1 b2 b3).toNat = b0.toNat * 2 ^ 24 + b1.toNat * 2 ^ 16 + b2.toNat * 2 ^ 8 + b3.toNat) ∧
  (∀ v : BitVec 64, (be64 v).length = 8 ∧
    (be64 v).foldl (fun acc b => 256 * acc + b.toNat) 0 = v.toNat)

/-- 41_message_schedule.md R140, R141, R142: the expanded words. -/
def Obligations.ExpansionFollowsTheRecurrence : Prop :=
  ∀ blk : Block,
    (∀ i : Fin 16, (expandW blk)[i.val]'(by omega) =
      be32 (blk[4 * i.val]'(by omega)) (blk[4 * i.val + 1]'(by omega)) (blk[4 * i.val + 2]'(by omega))
        (blk[4 * i.val + 3]'(by omega))) ∧
    (∀ i : Fin 52, (expandW blk)[i.val + 16]'(by omega) =
      p1 ((expandW blk)[i.val]'(by omega) ^^^ (expandW blk)[i.val + 7]'(by omega) ^^^
          rotl32 ((expandW blk)[i.val + 13]'(by omega)) 15) ^^^
        rotl32 ((expandW blk)[i.val + 3]'(by omega)) 7 ^^^ (expandW blk)[i.val + 10]'(by omega)) ∧
    (∀ j : Fin 64, (expandWp (expandW blk))[j.val]'(by omega) =
      (expandW blk)[j.val]'(by omega) ^^^ (expandW blk)[j.val + 4]'(by omega))

/-- 42_compression.md R151, R152: the schedule of `TJ`, the value `T'j` it has in every round, and the engine
holding it. -/
def Obligations.IncrementalRoundConstant : Prop :=
  (∀ s t : State, microStep s = .next t → s.estate = .load → t.tj = 0x79cc4519) ∧
  (∀ s t : State, microStep s = .next t → s.estate = .round →
    t.tj = (if s.j = 15 then 0x9d8a7a87 else rotl32 s.tj 1)) ∧
  rotl32 0x7a879d8a 16 = 0x9d8a7a87 ∧
  (∀ tj : Nat → Word, tj 0 = 0x79cc4519 →
    (∀ n, n < 63 → tj (n + 1) = if n = 15 then 0x9d8a7a87 else rotl32 (tj n) 1) →
    ∀ j, j < 64 → tj j = rotl32 (if j < 16 then 0x79cc4519 else 0x7a879d8a) (j % 32)) ∧
  (∀ s : State, s.Inv → s.estate = .round →
    s.tj = rotl32 (if s.j.toNat < 16 then 0x79cc4519 else 0x7a879d8a) (s.j.toNat % 32))

/-! ## The engine -/

/-- 42_compression.md R164: LOAD; with an empty queue it is the internal-consistency fault, which the
invariant rules out. -/
def Obligations.LoadStepFillsTheEngine : Prop :=
  (∀ s : State, s.estate = .load → s.jq = [] → microStep s = .fault .loadWithEmptyQueue) ∧
  (∀ s : State, s.Inv → s.estate = .load → s.jq ≠ []) ∧
  ∀ (s : State) (blk : Block) (rest : List Block), s.estate = .load → s.jq = blk :: rest →
    microStep s = .next { s with
      w := expandW blk, wp := expandWp (expandW blk), j := 0, tj := 0x79cc4519, estate := .round,
      regs := { a := s.v[0], b := s.v[1], c := s.v[2], d := s.v[3],
                e := s.v[4], f := s.v[5], g := s.v[6], h := s.v[7] } }

/-- 42_compression.md R153, R165: ROUND, written out. -/
def Obligations.RoundStepComputesOneRound : Prop :=
  ∀ s : State, s.estate = .round →
    ∃ t, microStep s = .next t ∧
      t = { s with regs := t.regs, tj := t.tj, j := t.j, estate := t.estate } ∧
      t.tj = (if s.j = 15 then 0x9d8a7a87 else rotl32 s.tj 1) ∧
      t.estate = (if s.j = 63 then .feed else .round) ∧
      t.j.toNat = (if s.j.toNat = 63 then 63 else s.j.toNat + 1) ∧
      ∃ (wj wpj : Word) (ss1 ss2 ff gg tt1 tt2 : Word),
        s.w[s.j.toNat]? = some wj ∧ s.wp[s.j.toNat]? = some wpj ∧
        ss1 = rotl32 (rotl32 s.regs.a 12 + s.regs.e + s.tj) 7 ∧
        ss2 = ss1 ^^^ rotl32 s.regs.a 12 ∧
        ff = (if s.j.toNat < 16 then ff0 s.regs.a s.regs.b s.regs.c else ff1 s.regs.a s.regs.b s.regs.c) ∧
        gg = (if s.j.toNat < 16 then gg0 s.regs.e s.regs.f s.regs.g else gg1 s.regs.e s.regs.f s.regs.g) ∧
        tt1 = ff + s.regs.d + ss2 + wpj ∧
        tt2 = gg + s.regs.h + ss1 + wj ∧
        t.regs = { a := tt1, b := s.regs.a, c := rotl32 s.regs.b 9, d := s.regs.c,
                   e := p0 tt2, f := s.regs.e, g := rotl32 s.regs.f 19, h := s.regs.g }

/-- 42_compression.md R166: FEED, the only step of the engine that writes `V`. -/
def Obligations.FeedStepUpdatesTheChainingState : Prop :=
  (∀ s t : State, microStep s = .next t → s.estate ≠ .feed → t.v = s.v) ∧
  ∀ (s : State) (blk : Block) (rest : List Block), s.estate = .feed → s.jq = blk :: rest →
    ∃ t, microStep s = .next t ∧
      t = { s with v := t.v, jq := rest, estate := t.estate } ∧
      t.v.toList = [s.v[0] ^^^ s.regs.a, s.v[1] ^^^ s.regs.b, s.v[2] ^^^ s.regs.c, s.v[3] ^^^ s.regs.d,
        s.v[4] ^^^ s.regs.e, s.v[5] ^^^ s.regs.f, s.v[6] ^^^ s.regs.g, s.v[7] ^^^ s.regs.h] ∧
      (t.busy = false ↔ rest = []) ∧ (rest ≠ [] → t.estate = .load)

/-- 42_compression.md R161, R167: the engine touches only its own state and `V`. -/
def Obligations.EngineTurnLeavesTheContextAlone : Prop :=
  ∀ (n : Nat) (s t : State), engineTurn n s = .next t →
    t = { s with v := t.v, jq := t.jq, estate := t.estate, j := t.j, regs := t.regs, tj := t.tj, w := t.w,
                 wp := t.wp } ∧
    (s.busy = false → t = s)

/-- 42_compression.md R160, R163 to R167: from any point of a job, the reference number of micro-steps ends
the job with `V` the compressions of the queued blocks in order, and nothing else the host sees changed;
further micro-steps change nothing, so no result depends on `ENGINE_STEPS` (log entry 5). -/
def Obligations.JobComputesTheCompressions : Prop :=
  ∀ (s : State) (n : Nat), s.Inv → s.microStepsLeft ≤ n →
    (∃ t, engineTurn n s = .next t ∧ t.busy = false ∧ t.v = s.jq.foldl compress s.v ∧
      t.hostView = s.collapsedJob.hostView ∧ t.buf = s.buf ∧ t.jq = []) ∧
    ∀ k u, engineTurn k s = .next u →
      { u.hostView with v := s.v, busy := s.busy } = s.hostView ∧ u.buf = s.buf

/-- 42_compression.md R162: with no other turn placed, every job ends, after at most the 132 micro-steps of a
two-block job in the reference schedule (R163; log entries 1 and 5). -/
def Obligations.EveryJobEnds : Prop :=
  ∀ s : State, s.Inv → s.script = [] →
    ∃ n t, n ≤ 132 ∧ Host.Core.run core n s = .next t ∧ t.busy = false ∧ t.v = s.eventual

/-- 20_memory.md R73, 70_reset_and_hazards.md R301: while a job goes on, a host operation and an engine
micro-step can be exchanged. The two orders end in the same state. For a read other than `RD STATUS` the value
read is left out of the comparison, since R246 promises nothing of it; that the draw counter, the model's own,
agrees is log entry 4's. -/
def Obligations.HostOperationCommutesWithTheEngine : Prop :=
  ∀ (i : Instr) (s t : State), s.busy = true → microStep s = .next t → t.busy = true →
    ∃ u u' t', exec i s = .next u ∧ microStep u = .next u' ∧ exec i t = .next t' ∧
      { t' with rdata := u'.rdata } = u' ∧ (i.dir = .wr ∨ i = .rdStatus → t' = u')

/-- 10_state.md R39: while busy, no host operation observes the engine: two busy states that differ only in
`V` and the engine's registers give the host the same `STATUS` and `ERR`. The value of a read other than
`RD STATUS` is left out of the comparison, since R246 promises nothing of it; that the draw counter, the
model's own, agrees is log entry 4's. -/
def Obligations.NoHostOperationObservesTheEngine : Prop :=
  ∀ (i : Instr) (s s' t t' : State), s.busy = true → s'.busy = true →
    s' = { s with v := s'.v, jq := s'.jq, estate := s'.estate, j := s'.j, regs := s'.regs, tj := s'.tj,
                  w := s'.w, wp := s'.wp } →
    exec i s = .next t → exec i s' = .next t' →
    (i.dir = .wr ∨ i = .rdStatus → t'.rdata = t.rdata) ∧
    t'.err = t.err ∧ t'.statusWord = t.statusWord ∧ t'.draws = t.draws

/-! ## Rules about the whole machine -/

/-- 10_state.md R22: within a context `V` is changed only by FEED. -/
def Obligations.OnlyFeedChangesTheChainingState : Prop :=
  (∀ (i : Instr) (s t : State), exec i s = .next t → t.v ≠ s.v → i = .wrCmdInit ∨ i = .wrCmdForgeInit) ∧
  (∀ s t : State, microStep s = .next t → t.v ≠ s.v → s.estate = .feed)

/-- 10_state.md R30: the transitions of `PHASE`, its reset value, and where the host reads it. -/
def Obligations.PhaseTransitions : Prop :=
  (∀ s : State, s.busy = false →
    (∃ t, exec .wrCmdInit s = .next t ∧ t.phase = .active) ∧
    (s.flen.toNat ≤ 0x1fffffffffffffb7 → ∃ t, exec .wrCmdForgeInit s = .next t ∧ t.phase = .active) ∧
    (s.phase = .active → ∃ t, exec .wrCmdFinalize s = .next t ∧ t.phase = .finalized)) ∧
  (∀ (i : Instr) (s t : State), exec i s = .next t → t.phase ≠ s.phase →
    ((i = .wrCmdInit ∨ i = .wrCmdForgeInit) ∧ t.phase = .active) ∨
    (i = .wrCmdFinalize ∧ s.phase = .active ∧ t.phase = .finalized)) ∧
  (∀ (n : Nat) (s t : State), engineTurn n s = .next t → t.phase = s.phase) ∧
  (∀ s : State, s.platformReset.phase = .idle) ∧ State.reset.phase = .idle ∧
  (∀ s : State, ∃ t, exec .rdStatus s = .next t ∧ t.rdata.extractLsb' 1 2 = s.phase.code)

/-- The frame of every host operation (10_state.md R40, 45_control.md R249): which state each family can
change at all. `V`, `PHASE` and `ERR` have statements of their own. That the turns still to come stay is about
the model's own field (log entry 1). -/
def Obligations.HostOperationFrame : Prop :=
  ∀ (i : Instr) (s t : State), exec i s = .next t →
    t.j = s.j ∧ t.regs = s.regs ∧ t.tj = s.tj ∧ t.w = s.w ∧ t.wp = s.wp ∧ t.script = s.script ∧
    (t.fdig ≠ s.fdig → ∃ k d, i = .wrFdig k d) ∧
    (t.flen ≠ s.flen → ∃ d, i = .wrFlenLo d ∨ i = .wrFlenHi d) ∧
    (t.padLen ≠ s.padLen ∨ t.pad ≠ s.pad → i = .wrCmdForgeInit) ∧
    (t.buf ≠ s.buf → ∃ d, i = .wrDinByte d ∨ i = .wrDinWord d) ∧
    (t.bufcnt ≠ s.bufcnt ∨ t.totalbits ≠ s.totalbits →
      i = .wrCmdInit ∨ i = .wrCmdFinalize ∨ i = .wrCmdForgeInit ∨ ∃ d, i = .wrDinByte d ∨ i = .wrDinWord d) ∧
    (t.jq ≠ s.jq ∨ t.estate ≠ s.estate → i = .wrCmdFinalize ∨ ∃ d, i = .wrDinByte d ∨ i = .wrDinWord d)

/-! ## Hashing and forgery -/

/-- 43_stream_padding.md R183 to R185, R187, 60_exceptions.md R264: a context holds exactly the concatenation of
the bytes written to it, however they are split, and engine steps between the writes do not matter. An accepted
data write adds its bytes; every other operation that does not create or finalize the context, every rejected
one, and every engine turn keep the message; all keep the invariant. So every step that answers a next state
keeps the invariant and extends the message by at most the bytes of one write, unless it is a reset, `INIT`,
`FORGE_INIT` or `FINALIZE`. -/
def Obligations.DataWritesExtendTheMessage : Prop :=
  ∀ (s : State) (h : Chain) (seed : Nat) (m : List Byte), s.Inv → s.HoldsMessage h seed m →
    (∀ d : Word, s.busy = false → s.totalbits.toNat + 8 * (s.bufcnt.toNat + 1) ≤ 2 ^ 64 - 1 →
      ∃ t, exec (.wrDinByte d) s = .next t ∧ t.Inv ∧ t.HoldsMessage h seed (m ++ [d.setWidth 8])) ∧
    (∀ d : Word, s.busy = false → s.totalbits.toNat + 8 * (s.bufcnt.toNat + 4) ≤ 2 ^ 64 - 1 →
      ∃ t, exec (.wrDinWord d) s = .next t ∧ t.Inv ∧ t.HoldsMessage h seed (m ++ bytes32 d)) ∧
    (∀ (i : Instr) (t : State), i ≠ .wrCmdInit → i ≠ .wrCmdForgeInit → i ≠ .wrCmdFinalize →
      (∀ d, i ≠ .wrDinByte d ∧ i ≠ .wrDinWord d) → exec i s = .next t → t.Inv ∧ t.HoldsMessage h seed m) ∧
    (∀ (i : Instr) (t : State), s.busy = true → exec i s = .next t → t.Inv ∧ t.HoldsMessage h seed m) ∧
    (∀ (d : Word) (t : State), 2 ^ 64 - 1 < s.totalbits.toNat + 8 * (s.bufcnt.toNat + 1) →
      exec (.wrDinByte d) s = .next t → t.Inv ∧ t.HoldsMessage h seed m) ∧
    (∀ (d : Word) (t : State), 2 ^ 64 - 1 < s.totalbits.toNat + 8 * (s.bufcnt.toNat + 4) →
      exec (.wrDinWord d) s = .next t → t.Inv ∧ t.HoldsMessage h seed m) ∧
    (∀ t : State, 0x1fffffffffffffb7 < s.flen.toNat →
      exec .wrCmdForgeInit s = .next t → t.Inv ∧ t.HoldsMessage h seed m) ∧
    (∀ n t, engineTurn n s = .next t → t.Inv ∧ t.HoldsMessage h seed m) ∧
    (∀ t : State, step s = .next t →
      t.Inv ∧
      ((∃ bytes : List Byte, bytes.length ≤ 4 ∧ t.HoldsMessage h seed (m ++ bytes)) ∨
        (∃ rest, s.script = .reset :: rest) ∨
        ∃ a rest i, s.script = .host a :: rest ∧ decodeAccess a.bytes a.word = .ok i ∧
          (i = .wrCmdInit ∨ i = .wrCmdForgeInit ∨ i = .wrCmdFinalize)))

/-- 43_stream_padding.md R182, 44_digest_forgery.md R215: an accepted `INIT` starts a context that holds the
empty message from the initial vector, an accepted `FORGE_INIT` one that continues the leaked digest after
the padded length. -/
def Obligations.NewContextHoldsTheEmptyMessage : Prop :=
  ∀ s : State, s.Inv → s.busy = false →
    (∃ t, exec .wrCmdInit s = .next t ∧ t.HoldsMessage iv 0 []) ∧
    (s.flen.toNat ≤ 0x1fffffffffffffb7 →
      ∃ t, exec .wrCmdForgeInit s = .next t ∧ t.HoldsMessage s.fdig (paddedBits s.flen.toNat / 8) [])

/-- 43_stream_padding.md R188, R190, R191: `FINALIZE` of a context that holds `m` makes the digest that of
`m` with its padding, once the job it starts is done. -/
def Obligations.FinalizeGivesTheHashOfTheMessage : Prop :=
  ∀ (s : State) (h : Chain) (seed : Nat) (m : List Byte), s.Inv → s.busy = false → s.HoldsMessage h seed m →
    ∃ t, exec .wrCmdFinalize s = .next t ∧ t.busy = true ∧
      ∀ n, t.microStepsLeft ≤ n →
        ∃ u, engineTurn n t = .next u ∧ u.busy = false ∧ u.v = hashFrom h seed m ∧ u.phase = .finalized ∧
          u.totalbits.toNat = 8 * (seed + m.length)

/-- 44_digest_forgery.md R222: length extension. Continuing the digest of `M` after its padded length with
`S` gives the digest of `M ‖ pad(|M|) ‖ S`: as functions, and of the machine. `FORGE_INIT` with that digest and
length starts a context that holds the empty suffix; once such a context holds `S`, `FINALIZE` and its job end
with the digest words that a context from `INIT` holding `M ‖ pad(|M|) ‖ S` ends with. -/
def Obligations.ForgedDigestIsGenuine : Prop :=
  ∀ m x : List Byte,
    hashFrom (hashWords m) (paddedBits m.length / 8) x = hashWords (m ++ padBytes m.length ++ x) ∧
    (∀ s : State, s.Inv → s.busy = false → s.fdig = hashWords m → s.flen.toNat = m.length →
      m.length ≤ 0x1fffffffffffffb7 →
      ∃ t, exec .wrCmdForgeInit s = .next t ∧ t.HoldsMessage (hashWords m) (paddedBits m.length / 8) []) ∧
    (∀ s d : State, s.Inv → s.busy = false → s.HoldsMessage (hashWords m) (paddedBits m.length / 8) x →
      d.Inv → d.busy = false → d.HoldsMessage iv 0 (m ++ padBytes m.length ++ x) →
      ∃ t e, exec .wrCmdFinalize s = .next t ∧ exec .wrCmdFinalize d = .next e ∧
        ∀ n, t.microStepsLeft ≤ n → e.microStepsLeft ≤ n →
          ∃ u f, engineTurn n t = .next u ∧ engineTurn n e = .next f ∧ u.busy = false ∧ f.busy = false ∧
            u.v = f.v ∧ u.v = hashWords (m ++ padBytes m.length ++ x) ∧ u.totalbits = f.totalbits)

/-! ## Instances -/

/-- 60_exceptions.md R276, 70_reset_and_hazards.md R302: a step of one instance leaves every other as it is,
and steps of two instances can be exchanged. -/
def Obligations.InstancesDoNotInterfere : Prop :=
  ∀ (p : Platform) (k l : Nat) (q r : Platform), k ≠ l →
    p.stepAt k = some (.next q) → p.stepAt l = some (.next r) →
    q.instances[l]? = p.instances[l]? ∧
    ∃ z, q.stepAt l = some (.next z) ∧ r.stepAt k = some (.next z)

/-- 20_memory.md R78, 60_exceptions.md R276: an access in the window of instance `k` joins the script of that
instance and of no other; windows are aligned to 256 bytes (92_eei_decisions.md D2). -/
def Obligations.AccessReachesOneInstance : Prop :=
  ∀ (p : Platform) (dir : Dir) (k bytes : Nat) (off : BitVec 8) (v : Word),
    Config.base k % 256 = 0 ∧
    (p.present dir (Config.base k + off.toNat) bytes v).instances[k]? =
      p.instances[k]?.map (fun s => { s with script := s.script ++ [.host ⟨bytes, busWord dir off v⟩] }) ∧
    ∀ l, l ≠ k →
      (p.present dir (Config.base k + off.toNat) bytes v).instances[l]? = p.instances[l]?
end

