-- ==== Sys2Proof/Laws/State.lean ====
section
/-! SUPPORT. One lemma per field per update of the state, so that no proof unfolds a record update. -/

namespace Sys2Proof.Machine

/-! `raiseError` -/

@[simp] theorem State.raiseError_v (s : State) (e : ErrCode) : (s.raiseError e).v = s.v := by
  unfold State.raiseError; split <;> rfl
@[simp] theorem State.raiseError_buf (s : State) (e : ErrCode) : (s.raiseError e).buf = s.buf := by
  unfold State.raiseError; split <;> rfl
@[simp] theorem State.raiseError_bufcnt (s : State) (e : ErrCode) : (s.raiseError e).bufcnt = s.bufcnt := by
  unfold State.raiseError; split <;> rfl
@[simp] theorem State.raiseError_totalbits (s : State) (e : ErrCode) : (s.raiseError e).totalbits = s.totalbits := by
  unfold State.raiseError; split <;> rfl
@[simp] theorem State.raiseError_phase (s : State) (e : ErrCode) : (s.raiseError e).phase = s.phase := by
  unfold State.raiseError; split <;> rfl
@[simp] theorem State.raiseError_fdig (s : State) (e : ErrCode) : (s.raiseError e).fdig = s.fdig := by
  unfold State.raiseError; split <;> rfl
@[simp] theorem State.raiseError_flen (s : State) (e : ErrCode) : (s.raiseError e).flen = s.flen := by
  unfold State.raiseError; split <;> rfl
@[simp] theorem State.raiseError_padLen (s : State) (e : ErrCode) : (s.raiseError e).padLen = s.padLen := by
  unfold State.raiseError; split <;> rfl
@[simp] theorem State.raiseError_pad (s : State) (e : ErrCode) : (s.raiseError e).pad = s.pad := by
  unfold State.raiseError; split <;> rfl
@[simp] theorem State.raiseError_err (s : State) (e : ErrCode) : (s.raiseError e).err = if s.err = .none then e else s.err := by
  unfold State.raiseError; split <;> rfl
@[simp] theorem State.raiseError_estate (s : State) (e : ErrCode) : (s.raiseError e).estate = s.estate := by
  unfold State.raiseError; split <;> rfl
@[simp] theorem State.raiseError_jq (s : State) (e : ErrCode) : (s.raiseError e).jq = s.jq := by
  unfold State.raiseError; split <;> rfl
@[simp] theorem State.raiseError_j (s : State) (e : ErrCode) : (s.raiseError e).j = s.j := by
  unfold State.raiseError; split <;> rfl
@[simp] theorem State.raiseError_regs (s : State) (e : ErrCode) : (s.raiseError e).regs = s.regs := by
  unfold State.raiseError; split <;> rfl
@[simp] theorem State.raiseError_tj (s : State) (e : ErrCode) : (s.raiseError e).tj = s.tj := by
  unfold State.raiseError; split <;> rfl
@[simp] theorem State.raiseError_w (s : State) (e : ErrCode) : (s.raiseError e).w = s.w := by
  unfold State.raiseError; split <;> rfl
@[simp] theorem State.raiseError_wp (s : State) (e : ErrCode) : (s.raiseError e).wp = s.wp := by
  unfold State.raiseError; split <;> rfl
@[simp] theorem State.raiseError_rdata (s : State) (e : ErrCode) : (s.raiseError e).rdata = s.rdata := by
  unfold State.raiseError; split <;> rfl
@[simp] theorem State.raiseError_draws (s : State) (e : ErrCode) : (s.raiseError e).draws = s.draws := by
  unfold State.raiseError; split <;> rfl
@[simp] theorem State.raiseError_script (s : State) (e : ErrCode) : (s.raiseError e).script = s.script := by
  unfold State.raiseError; split <;> rfl

/-! `clearError` -/

@[simp] theorem State.clearError_v (s : State) : (s.clearError).v = s.v := rfl
@[simp] theorem State.clearError_buf (s : State) : (s.clearError).buf = s.buf := rfl
@[simp] theorem State.clearError_bufcnt (s : State) : (s.clearError).bufcnt = s.bufcnt := rfl
@[simp] theorem State.clearError_totalbits (s : State) : (s.clearError).totalbits = s.totalbits := rfl
@[simp] theorem State.clearError_phase (s : State) : (s.clearError).phase = s.phase := rfl
@[simp] theorem State.clearError_fdig (s : State) : (s.clearError).fdig = s.fdig := rfl
@[simp] theorem State.clearError_flen (s : State) : (s.clearError).flen = s.flen := rfl
@[simp] theorem State.clearError_padLen (s : State) : (s.clearError).padLen = s.padLen := rfl
@[simp] theorem State.clearError_pad (s : State) : (s.clearError).pad = s.pad := rfl
@[simp] theorem State.clearError_err (s : State) : (s.clearError).err = .none := rfl
@[simp] theorem State.clearError_estate (s : State) : (s.clearError).estate = s.estate := rfl
@[simp] theorem State.clearError_jq (s : State) : (s.clearError).jq = s.jq := rfl
@[simp] theorem State.clearError_j (s : State) : (s.clearError).j = s.j := rfl
@[simp] theorem State.clearError_regs (s : State) : (s.clearError).regs = s.regs := rfl
@[simp] theorem State.clearError_tj (s : State) : (s.clearError).tj = s.tj := rfl
@[simp] theorem State.clearError_w (s : State) : (s.clearError).w = s.w := rfl
@[simp] theorem State.clearError_wp (s : State) : (s.clearError).wp = s.wp := rfl
@[simp] theorem State.clearError_rdata (s : State) : (s.clearError).rdata = s.rdata := rfl
@[simp] theorem State.clearError_draws (s : State) : (s.clearError).draws = s.draws := rfl
@[simp] theorem State.clearError_script (s : State) : (s.clearError).script = s.script := rfl

/-! `answer` -/

@[simp] theorem State.answer_v (s : State) (x : Word) : (s.answer x).v = s.v := rfl
@[simp] theorem State.answer_buf (s : State) (x : Word) : (s.answer x).buf = s.buf := rfl
@[simp] theorem State.answer_bufcnt (s : State) (x : Word) : (s.answer x).bufcnt = s.bufcnt := rfl
@[simp] theorem State.answer_totalbits (s : State) (x : Word) : (s.answer x).totalbits = s.totalbits := rfl
@[simp] theorem State.answer_phase (s : State) (x : Word) : (s.answer x).phase = s.phase := rfl
@[simp] theorem State.answer_fdig (s : State) (x : Word) : (s.answer x).fdig = s.fdig := rfl
@[simp] theorem State.answer_flen (s : State) (x : Word) : (s.answer x).flen = s.flen := rfl
@[simp] theorem State.answer_padLen (s : State) (x : Word) : (s.answer x).padLen = s.padLen := rfl
@[simp] theorem State.answer_pad (s : State) (x : Word) : (s.answer x).pad = s.pad := rfl
@[simp] theorem State.answer_err (s : State) (x : Word) : (s.answer x).err = s.err := rfl
@[simp] theorem State.answer_estate (s : State) (x : Word) : (s.answer x).estate = s.estate := rfl
@[simp] theorem State.answer_jq (s : State) (x : Word) : (s.answer x).jq = s.jq := rfl
@[simp] theorem State.answer_j (s : State) (x : Word) : (s.answer x).j = s.j := rfl
@[simp] theorem State.answer_regs (s : State) (x : Word) : (s.answer x).regs = s.regs := rfl
@[simp] theorem State.answer_tj (s : State) (x : Word) : (s.answer x).tj = s.tj := rfl
@[simp] theorem State.answer_w (s : State) (x : Word) : (s.answer x).w = s.w := rfl
@[simp] theorem State.answer_wp (s : State) (x : Word) : (s.answer x).wp = s.wp := rfl
@[simp] theorem State.answer_rdata (s : State) (x : Word) : (s.answer x).rdata = x := rfl
@[simp] theorem State.answer_draws (s : State) (x : Word) : (s.answer x).draws = s.draws := rfl
@[simp] theorem State.answer_script (s : State) (x : Word) : (s.answer x).script = s.script := rfl

/-! `answerFree` -/

@[simp] theorem State.answerFree_v (s : State) : (s.answerFree).v = s.v := rfl
@[simp] theorem State.answerFree_buf (s : State) : (s.answerFree).buf = s.buf := rfl
@[simp] theorem State.answerFree_bufcnt (s : State) : (s.answerFree).bufcnt = s.bufcnt := rfl
@[simp] theorem State.answerFree_totalbits (s : State) : (s.answerFree).totalbits = s.totalbits := rfl
@[simp] theorem State.answerFree_phase (s : State) : (s.answerFree).phase = s.phase := rfl
@[simp] theorem State.answerFree_fdig (s : State) : (s.answerFree).fdig = s.fdig := rfl
@[simp] theorem State.answerFree_flen (s : State) : (s.answerFree).flen = s.flen := rfl
@[simp] theorem State.answerFree_padLen (s : State) : (s.answerFree).padLen = s.padLen := rfl
@[simp] theorem State.answerFree_pad (s : State) : (s.answerFree).pad = s.pad := rfl
@[simp] theorem State.answerFree_err (s : State) : (s.answerFree).err = s.err := rfl
@[simp] theorem State.answerFree_estate (s : State) : (s.answerFree).estate = s.estate := rfl
@[simp] theorem State.answerFree_jq (s : State) : (s.answerFree).jq = s.jq := rfl
@[simp] theorem State.answerFree_j (s : State) : (s.answerFree).j = s.j := rfl
@[simp] theorem State.answerFree_regs (s : State) : (s.answerFree).regs = s.regs := rfl
@[simp] theorem State.answerFree_tj (s : State) : (s.answerFree).tj = s.tj := rfl
@[simp] theorem State.answerFree_w (s : State) : (s.answerFree).w = s.w := rfl
@[simp] theorem State.answerFree_wp (s : State) : (s.answerFree).wp = s.wp := rfl
@[simp] theorem State.answerFree_rdata (s : State) : (s.answerFree).rdata = Config.busyRead s.draws := rfl
@[simp] theorem State.answerFree_draws (s : State) : (s.answerFree).draws = s.draws + 1 := rfl
@[simp] theorem State.answerFree_script (s : State) : (s.answerFree).script = s.script := rfl

/-! `bufferByte` -/

@[simp] theorem State.bufferByte_v (s : State) (b : Byte) : (s.bufferByte b).v = s.v := rfl
@[simp] theorem State.bufferByte_buf (s : State) (b : Byte) : (s.bufferByte b).buf = s.buf.set s.bufcnt.toNat b s.bufcnt.isLt := rfl
@[simp] theorem State.bufferByte_bufcnt (s : State) (b : Byte) : (s.bufferByte b).bufcnt = s.bufcnt + 1 := rfl
@[simp] theorem State.bufferByte_totalbits (s : State) (b : Byte) : (s.bufferByte b).totalbits = s.totalbits := rfl
@[simp] theorem State.bufferByte_phase (s : State) (b : Byte) : (s.bufferByte b).phase = s.phase := rfl
@[simp] theorem State.bufferByte_fdig (s : State) (b : Byte) : (s.bufferByte b).fdig = s.fdig := rfl
@[simp] theorem State.bufferByte_flen (s : State) (b : Byte) : (s.bufferByte b).flen = s.flen := rfl
@[simp] theorem State.bufferByte_padLen (s : State) (b : Byte) : (s.bufferByte b).padLen = s.padLen := rfl
@[simp] theorem State.bufferByte_pad (s : State) (b : Byte) : (s.bufferByte b).pad = s.pad := rfl
@[simp] theorem State.bufferByte_err (s : State) (b : Byte) : (s.bufferByte b).err = s.err := rfl
@[simp] theorem State.bufferByte_estate (s : State) (b : Byte) : (s.bufferByte b).estate = s.estate := rfl
@[simp] theorem State.bufferByte_jq (s : State) (b : Byte) : (s.bufferByte b).jq = s.jq := rfl
@[simp] theorem State.bufferByte_j (s : State) (b : Byte) : (s.bufferByte b).j = s.j := rfl
@[simp] theorem State.bufferByte_regs (s : State) (b : Byte) : (s.bufferByte b).regs = s.regs := rfl
@[simp] theorem State.bufferByte_tj (s : State) (b : Byte) : (s.bufferByte b).tj = s.tj := rfl
@[simp] theorem State.bufferByte_w (s : State) (b : Byte) : (s.bufferByte b).w = s.w := rfl
@[simp] theorem State.bufferByte_wp (s : State) (b : Byte) : (s.bufferByte b).wp = s.wp := rfl
@[simp] theorem State.bufferByte_rdata (s : State) (b : Byte) : (s.bufferByte b).rdata = s.rdata := rfl
@[simp] theorem State.bufferByte_draws (s : State) (b : Byte) : (s.bufferByte b).draws = s.draws := rfl
@[simp] theorem State.bufferByte_script (s : State) (b : Byte) : (s.bufferByte b).script = s.script := rfl

/-! `completeBlock` -/

@[simp] theorem State.completeBlock_v (s : State) (b : Byte) : (s.completeBlock b).v = s.v := rfl
@[simp] theorem State.completeBlock_buf (s : State) (b : Byte) : (s.completeBlock b).buf = s.buf.set s.bufcnt.toNat b s.bufcnt.isLt := rfl
@[simp] theorem State.completeBlock_bufcnt (s : State) (b : Byte) : (s.completeBlock b).bufcnt = 0 := rfl
@[simp] theorem State.completeBlock_totalbits (s : State) (b : Byte) : (s.completeBlock b).totalbits = s.totalbits + 512 := rfl
@[simp] theorem State.completeBlock_phase (s : State) (b : Byte) : (s.completeBlock b).phase = s.phase := rfl
@[simp] theorem State.completeBlock_fdig (s : State) (b : Byte) : (s.completeBlock b).fdig = s.fdig := rfl
@[simp] theorem State.completeBlock_flen (s : State) (b : Byte) : (s.completeBlock b).flen = s.flen := rfl
@[simp] theorem State.completeBlock_padLen (s : State) (b : Byte) : (s.completeBlock b).padLen = s.padLen := rfl
@[simp] theorem State.completeBlock_pad (s : State) (b : Byte) : (s.completeBlock b).pad = s.pad := rfl
@[simp] theorem State.completeBlock_err (s : State) (b : Byte) : (s.completeBlock b).err = s.err := rfl
@[simp] theorem State.completeBlock_estate (s : State) (b : Byte) : (s.completeBlock b).estate = .load := rfl
@[simp] theorem State.completeBlock_jq (s : State) (b : Byte) : (s.completeBlock b).jq = s.jq ++ [s.buf.set s.bufcnt.toNat b s.bufcnt.isLt] := rfl
@[simp] theorem State.completeBlock_j (s : State) (b : Byte) : (s.completeBlock b).j = s.j := rfl
@[simp] theorem State.completeBlock_regs (s : State) (b : Byte) : (s.completeBlock b).regs = s.regs := rfl
@[simp] theorem State.completeBlock_tj (s : State) (b : Byte) : (s.completeBlock b).tj = s.tj := rfl
@[simp] theorem State.completeBlock_w (s : State) (b : Byte) : (s.completeBlock b).w = s.w := rfl
@[simp] theorem State.completeBlock_wp (s : State) (b : Byte) : (s.completeBlock b).wp = s.wp := rfl
@[simp] theorem State.completeBlock_rdata (s : State) (b : Byte) : (s.completeBlock b).rdata = s.rdata := rfl
@[simp] theorem State.completeBlock_draws (s : State) (b : Byte) : (s.completeBlock b).draws = s.draws := rfl
@[simp] theorem State.completeBlock_script (s : State) (b : Byte) : (s.completeBlock b).script = s.script := rfl

/-! `startContext` -/

@[simp] theorem State.startContext_v (s : State) (v : Chain) (n : BitVec 64) : (s.startContext v n).v = v := rfl
@[simp] theorem State.startContext_buf (s : State) (v : Chain) (n : BitVec 64) : (s.startContext v n).buf = s.buf := rfl
@[simp] theorem State.startContext_bufcnt (s : State) (v : Chain) (n : BitVec 64) : (s.startContext v n).bufcnt = 0 := rfl
@[simp] theorem State.startContext_totalbits (s : State) (v : Chain) (n : BitVec 64) : (s.startContext v n).totalbits = n := rfl
@[simp] theorem State.startContext_phase (s : State) (v : Chain) (n : BitVec 64) : (s.startContext v n).phase = .active := rfl
@[simp] theorem State.startContext_fdig (s : State) (v : Chain) (n : BitVec 64) : (s.startContext v n).fdig = s.fdig := rfl
@[simp] theorem State.startContext_flen (s : State) (v : Chain) (n : BitVec 64) : (s.startContext v n).flen = s.flen := rfl
@[simp] theorem State.startContext_padLen (s : State) (v : Chain) (n : BitVec 64) : (s.startContext v n).padLen = s.padLen := rfl
@[simp] theorem State.startContext_pad (s : State) (v : Chain) (n : BitVec 64) : (s.startContext v n).pad = s.pad := rfl
@[simp] theorem State.startContext_err (s : State) (v : Chain) (n : BitVec 64) : (s.startContext v n).err = s.err := rfl
@[simp] theorem State.startContext_estate (s : State) (v : Chain) (n : BitVec 64) : (s.startContext v n).estate = s.estate := rfl
@[simp] theorem State.startContext_jq (s : State) (v : Chain) (n : BitVec 64) : (s.startContext v n).jq = s.jq := rfl
@[simp] theorem State.startContext_j (s : State) (v : Chain) (n : BitVec 64) : (s.startContext v n).j = s.j := rfl
@[simp] theorem State.startContext_regs (s : State) (v : Chain) (n : BitVec 64) : (s.startContext v n).regs = s.regs := rfl
@[simp] theorem State.startContext_tj (s : State) (v : Chain) (n : BitVec 64) : (s.startContext v n).tj = s.tj := rfl
@[simp] theorem State.startContext_w (s : State) (v : Chain) (n : BitVec 64) : (s.startContext v n).w = s.w := rfl
@[simp] theorem State.startContext_wp (s : State) (v : Chain) (n : BitVec 64) : (s.startContext v n).wp = s.wp := rfl
@[simp] theorem State.startContext_rdata (s : State) (v : Chain) (n : BitVec 64) : (s.startContext v n).rdata = s.rdata := rfl
@[simp] theorem State.startContext_draws (s : State) (v : Chain) (n : BitVec 64) : (s.startContext v n).draws = s.draws := rfl
@[simp] theorem State.startContext_script (s : State) (v : Chain) (n : BitVec 64) : (s.startContext v n).script = s.script := rfl

/-! `storePadding` -/

@[simp] theorem State.storePadding_v (s : State) (n : Nat) : (s.storePadding n).v = s.v := rfl
@[simp] theorem State.storePadding_buf (s : State) (n : Nat) : (s.storePadding n).buf = s.buf := rfl
@[simp] theorem State.storePadding_bufcnt (s : State) (n : Nat) : (s.storePadding n).bufcnt = s.bufcnt := rfl
@[simp] theorem State.storePadding_totalbits (s : State) (n : Nat) : (s.storePadding n).totalbits = s.totalbits := rfl
@[simp] theorem State.storePadding_phase (s : State) (n : Nat) : (s.storePadding n).phase = s.phase := rfl
@[simp] theorem State.storePadding_fdig (s : State) (n : Nat) : (s.storePadding n).fdig = s.fdig := rfl
@[simp] theorem State.storePadding_flen (s : State) (n : Nat) : (s.storePadding n).flen = s.flen := rfl
@[simp] theorem State.storePadding_padLen (s : State) (n : Nat) : (s.storePadding n).padLen = BitVec.ofNat 7 (padLength n) := rfl
@[simp] theorem State.storePadding_pad (s : State) (n : Nat) : (s.storePadding n).pad = padStore n := rfl
@[simp] theorem State.storePadding_err (s : State) (n : Nat) : (s.storePadding n).err = s.err := rfl
@[simp] theorem State.storePadding_estate (s : State) (n : Nat) : (s.storePadding n).estate = s.estate := rfl
@[simp] theorem State.storePadding_jq (s : State) (n : Nat) : (s.storePadding n).jq = s.jq := rfl
@[simp] theorem State.storePadding_j (s : State) (n : Nat) : (s.storePadding n).j = s.j := rfl
@[simp] theorem State.storePadding_regs (s : State) (n : Nat) : (s.storePadding n).regs = s.regs := rfl
@[simp] theorem State.storePadding_tj (s : State) (n : Nat) : (s.storePadding n).tj = s.tj := rfl
@[simp] theorem State.storePadding_w (s : State) (n : Nat) : (s.storePadding n).w = s.w := rfl
@[simp] theorem State.storePadding_wp (s : State) (n : Nat) : (s.storePadding n).wp = s.wp := rfl
@[simp] theorem State.storePadding_rdata (s : State) (n : Nat) : (s.storePadding n).rdata = s.rdata := rfl
@[simp] theorem State.storePadding_draws (s : State) (n : Nat) : (s.storePadding n).draws = s.draws := rfl
@[simp] theorem State.storePadding_script (s : State) (n : Nat) : (s.storePadding n).script = s.script := rfl

/-! `queueFinal` -/

@[simp] theorem State.queueFinal_v (s : State) : (s.queueFinal).v = s.v := rfl
@[simp] theorem State.queueFinal_buf (s : State) : (s.queueFinal).buf = s.buf := rfl
@[simp] theorem State.queueFinal_bufcnt (s : State) : (s.queueFinal).bufcnt = 0 := rfl
@[simp] theorem State.queueFinal_totalbits (s : State) : (s.queueFinal).totalbits = s.messageBits := rfl
@[simp] theorem State.queueFinal_phase (s : State) : (s.queueFinal).phase = .finalized := rfl
@[simp] theorem State.queueFinal_fdig (s : State) : (s.queueFinal).fdig = s.fdig := rfl
@[simp] theorem State.queueFinal_flen (s : State) : (s.queueFinal).flen = s.flen := rfl
@[simp] theorem State.queueFinal_padLen (s : State) : (s.queueFinal).padLen = s.padLen := rfl
@[simp] theorem State.queueFinal_pad (s : State) : (s.queueFinal).pad = s.pad := rfl
@[simp] theorem State.queueFinal_err (s : State) : (s.queueFinal).err = s.err := rfl
@[simp] theorem State.queueFinal_estate (s : State) : (s.queueFinal).estate = .load := rfl
@[simp] theorem State.queueFinal_jq (s : State) : (s.queueFinal).jq = s.jq ++ finalBlocks s.buffered s.messageBits := rfl
@[simp] theorem State.queueFinal_j (s : State) : (s.queueFinal).j = s.j := rfl
@[simp] theorem State.queueFinal_regs (s : State) : (s.queueFinal).regs = s.regs := rfl
@[simp] theorem State.queueFinal_tj (s : State) : (s.queueFinal).tj = s.tj := rfl
@[simp] theorem State.queueFinal_w (s : State) : (s.queueFinal).w = s.w := rfl
@[simp] theorem State.queueFinal_wp (s : State) : (s.queueFinal).wp = s.wp := rfl
@[simp] theorem State.queueFinal_rdata (s : State) : (s.queueFinal).rdata = s.rdata := rfl
@[simp] theorem State.queueFinal_draws (s : State) : (s.queueFinal).draws = s.draws := rfl
@[simp] theorem State.queueFinal_script (s : State) : (s.queueFinal).script = s.script := rfl

/-! `writeFdig` -/

@[simp] theorem State.writeFdig_v (s : State) (i : BitVec 3) (d : Word) : (s.writeFdig i d).v = s.v := rfl
@[simp] theorem State.writeFdig_buf (s : State) (i : BitVec 3) (d : Word) : (s.writeFdig i d).buf = s.buf := rfl
@[simp] theorem State.writeFdig_bufcnt (s : State) (i : BitVec 3) (d : Word) : (s.writeFdig i d).bufcnt = s.bufcnt := rfl
@[simp] theorem State.writeFdig_totalbits (s : State) (i : BitVec 3) (d : Word) : (s.writeFdig i d).totalbits = s.totalbits := rfl
@[simp] theorem State.writeFdig_phase (s : State) (i : BitVec 3) (d : Word) : (s.writeFdig i d).phase = s.phase := rfl
@[simp] theorem State.writeFdig_fdig (s : State) (i : BitVec 3) (d : Word) : (s.writeFdig i d).fdig = s.fdig.set i.toNat d i.isLt := rfl
@[simp] theorem State.writeFdig_flen (s : State) (i : BitVec 3) (d : Word) : (s.writeFdig i d).flen = s.flen := rfl
@[simp] theorem State.writeFdig_padLen (s : State) (i : BitVec 3) (d : Word) : (s.writeFdig i d).padLen = s.padLen := rfl
@[simp] theorem State.writeFdig_pad (s : State) (i : BitVec 3) (d : Word) : (s.writeFdig i d).pad = s.pad := rfl
@[simp] theorem State.writeFdig_err (s : State) (i : BitVec 3) (d : Word) : (s.writeFdig i d).err = s.err := rfl
@[simp] theorem State.writeFdig_estate (s : State) (i : BitVec 3) (d : Word) : (s.writeFdig i d).estate = s.estate := rfl
@[simp] theorem State.writeFdig_jq (s : State) (i : BitVec 3) (d : Word) : (s.writeFdig i d).jq = s.jq := rfl
@[simp] theorem State.writeFdig_j (s : State) (i : BitVec 3) (d : Word) : (s.writeFdig i d).j = s.j := rfl
@[simp] theorem State.writeFdig_regs (s : State) (i : BitVec 3) (d : Word) : (s.writeFdig i d).regs = s.regs := rfl
@[simp] theorem State.writeFdig_tj (s : State) (i : BitVec 3) (d : Word) : (s.writeFdig i d).tj = s.tj := rfl
@[simp] theorem State.writeFdig_w (s : State) (i : BitVec 3) (d : Word) : (s.writeFdig i d).w = s.w := rfl
@[simp] theorem State.writeFdig_wp (s : State) (i : BitVec 3) (d : Word) : (s.writeFdig i d).wp = s.wp := rfl
@[simp] theorem State.writeFdig_rdata (s : State) (i : BitVec 3) (d : Word) : (s.writeFdig i d).rdata = s.rdata := rfl
@[simp] theorem State.writeFdig_draws (s : State) (i : BitVec 3) (d : Word) : (s.writeFdig i d).draws = s.draws := rfl
@[simp] theorem State.writeFdig_script (s : State) (i : BitVec 3) (d : Word) : (s.writeFdig i d).script = s.script := rfl

/-! `writeFlen` -/

@[simp] theorem State.writeFlen_v (s : State) (x : BitVec 64) : (s.writeFlen x).v = s.v := rfl
@[simp] theorem State.writeFlen_buf (s : State) (x : BitVec 64) : (s.writeFlen x).buf = s.buf := rfl
@[simp] theorem State.writeFlen_bufcnt (s : State) (x : BitVec 64) : (s.writeFlen x).bufcnt = s.bufcnt := rfl
@[simp] theorem State.writeFlen_totalbits (s : State) (x : BitVec 64) : (s.writeFlen x).totalbits = s.totalbits := rfl
@[simp] theorem State.writeFlen_phase (s : State) (x : BitVec 64) : (s.writeFlen x).phase = s.phase := rfl
@[simp] theorem State.writeFlen_fdig (s : State) (x : BitVec 64) : (s.writeFlen x).fdig = s.fdig := rfl
@[simp] theorem State.writeFlen_flen (s : State) (x : BitVec 64) : (s.writeFlen x).flen = x := rfl
@[simp] theorem State.writeFlen_padLen (s : State) (x : BitVec 64) : (s.writeFlen x).padLen = s.padLen := rfl
@[simp] theorem State.writeFlen_pad (s : State) (x : BitVec 64) : (s.writeFlen x).pad = s.pad := rfl
@[simp] theorem State.writeFlen_err (s : State) (x : BitVec 64) : (s.writeFlen x).err = s.err := rfl
@[simp] theorem State.writeFlen_estate (s : State) (x : BitVec 64) : (s.writeFlen x).estate = s.estate := rfl
@[simp] theorem State.writeFlen_jq (s : State) (x : BitVec 64) : (s.writeFlen x).jq = s.jq := rfl
@[simp] theorem State.writeFlen_j (s : State) (x : BitVec 64) : (s.writeFlen x).j = s.j := rfl
@[simp] theorem State.writeFlen_regs (s : State) (x : BitVec 64) : (s.writeFlen x).regs = s.regs := rfl
@[simp] theorem State.writeFlen_tj (s : State) (x : BitVec 64) : (s.writeFlen x).tj = s.tj := rfl
@[simp] theorem State.writeFlen_w (s : State) (x : BitVec 64) : (s.writeFlen x).w = s.w := rfl
@[simp] theorem State.writeFlen_wp (s : State) (x : BitVec 64) : (s.writeFlen x).wp = s.wp := rfl
@[simp] theorem State.writeFlen_rdata (s : State) (x : BitVec 64) : (s.writeFlen x).rdata = s.rdata := rfl
@[simp] theorem State.writeFlen_draws (s : State) (x : BitVec 64) : (s.writeFlen x).draws = s.draws := rfl
@[simp] theorem State.writeFlen_script (s : State) (x : BitVec 64) : (s.writeFlen x).script = s.script := rfl

/-! `loadStep` -/

@[simp] theorem State.loadStep_v (s : State) (blk : Block) : (s.loadStep blk).v = s.v := rfl
@[simp] theorem State.loadStep_buf (s : State) (blk : Block) : (s.loadStep blk).buf = s.buf := rfl
@[simp] theorem State.loadStep_bufcnt (s : State) (blk : Block) : (s.loadStep blk).bufcnt = s.bufcnt := rfl
@[simp] theorem State.loadStep_totalbits (s : State) (blk : Block) : (s.loadStep blk).totalbits = s.totalbits := rfl
@[simp] theorem State.loadStep_phase (s : State) (blk : Block) : (s.loadStep blk).phase = s.phase := rfl
@[simp] theorem State.loadStep_fdig (s : State) (blk : Block) : (s.loadStep blk).fdig = s.fdig := rfl
@[simp] theorem State.loadStep_flen (s : State) (blk : Block) : (s.loadStep blk).flen = s.flen := rfl
@[simp] theorem State.loadStep_padLen (s : State) (blk : Block) : (s.loadStep blk).padLen = s.padLen := rfl
@[simp] theorem State.loadStep_pad (s : State) (blk : Block) : (s.loadStep blk).pad = s.pad := rfl
@[simp] theorem State.loadStep_err (s : State) (blk : Block) : (s.loadStep blk).err = s.err := rfl
@[simp] theorem State.loadStep_estate (s : State) (blk : Block) : (s.loadStep blk).estate = .round := rfl
@[simp] theorem State.loadStep_jq (s : State) (blk : Block) : (s.loadStep blk).jq = s.jq := rfl
@[simp] theorem State.loadStep_j (s : State) (blk : Block) : (s.loadStep blk).j = 0 := rfl
@[simp] theorem State.loadStep_regs (s : State) (blk : Block) : (s.loadStep blk).regs = workingOf s.v := rfl
@[simp] theorem State.loadStep_tj (s : State) (blk : Block) : (s.loadStep blk).tj = firstTJ := rfl
@[simp] theorem State.loadStep_w (s : State) (blk : Block) : (s.loadStep blk).w = expandW blk := rfl
@[simp] theorem State.loadStep_wp (s : State) (blk : Block) : (s.loadStep blk).wp = expandWp (expandW blk) := rfl
@[simp] theorem State.loadStep_rdata (s : State) (blk : Block) : (s.loadStep blk).rdata = s.rdata := rfl
@[simp] theorem State.loadStep_draws (s : State) (blk : Block) : (s.loadStep blk).draws = s.draws := rfl
@[simp] theorem State.loadStep_script (s : State) (blk : Block) : (s.loadStep blk).script = s.script := rfl

/-! `roundStep` -/

@[simp] theorem State.roundStep_v (s : State) : (s.roundStep).v = s.v := rfl
@[simp] theorem State.roundStep_buf (s : State) : (s.roundStep).buf = s.buf := rfl
@[simp] theorem State.roundStep_bufcnt (s : State) : (s.roundStep).bufcnt = s.bufcnt := rfl
@[simp] theorem State.roundStep_totalbits (s : State) : (s.roundStep).totalbits = s.totalbits := rfl
@[simp] theorem State.roundStep_phase (s : State) : (s.roundStep).phase = s.phase := rfl
@[simp] theorem State.roundStep_fdig (s : State) : (s.roundStep).fdig = s.fdig := rfl
@[simp] theorem State.roundStep_flen (s : State) : (s.roundStep).flen = s.flen := rfl
@[simp] theorem State.roundStep_padLen (s : State) : (s.roundStep).padLen = s.padLen := rfl
@[simp] theorem State.roundStep_pad (s : State) : (s.roundStep).pad = s.pad := rfl
@[simp] theorem State.roundStep_err (s : State) : (s.roundStep).err = s.err := rfl
@[simp] theorem State.roundStep_estate (s : State) : (s.roundStep).estate = if s.j = 63 then .feed else .round := rfl
@[simp] theorem State.roundStep_jq (s : State) : (s.roundStep).jq = s.jq := rfl
@[simp] theorem State.roundStep_j (s : State) : (s.roundStep).j = if s.j = 63 then s.j else s.j + 1 := rfl
@[simp] theorem State.roundStep_regs (s : State) : (s.roundStep).regs = roundFn s.j s.tj (wAt s.w s.j) (wpAt s.wp s.j) s.regs := rfl
@[simp] theorem State.roundStep_tj (s : State) : (s.roundStep).tj = nextTJ s.j s.tj := rfl
@[simp] theorem State.roundStep_w (s : State) : (s.roundStep).w = s.w := rfl
@[simp] theorem State.roundStep_wp (s : State) : (s.roundStep).wp = s.wp := rfl
@[simp] theorem State.roundStep_rdata (s : State) : (s.roundStep).rdata = s.rdata := rfl
@[simp] theorem State.roundStep_draws (s : State) : (s.roundStep).draws = s.draws := rfl
@[simp] theorem State.roundStep_script (s : State) : (s.roundStep).script = s.script := rfl

/-! `feedStep` -/

@[simp] theorem State.feedStep_v (s : State) (rest : List Block) : (s.feedStep rest).v = feedForward s.v s.regs := rfl
@[simp] theorem State.feedStep_buf (s : State) (rest : List Block) : (s.feedStep rest).buf = s.buf := rfl
@[simp] theorem State.feedStep_bufcnt (s : State) (rest : List Block) : (s.feedStep rest).bufcnt = s.bufcnt := rfl
@[simp] theorem State.feedStep_totalbits (s : State) (rest : List Block) : (s.feedStep rest).totalbits = s.totalbits := rfl
@[simp] theorem State.feedStep_phase (s : State) (rest : List Block) : (s.feedStep rest).phase = s.phase := rfl
@[simp] theorem State.feedStep_fdig (s : State) (rest : List Block) : (s.feedStep rest).fdig = s.fdig := rfl
@[simp] theorem State.feedStep_flen (s : State) (rest : List Block) : (s.feedStep rest).flen = s.flen := rfl
@[simp] theorem State.feedStep_padLen (s : State) (rest : List Block) : (s.feedStep rest).padLen = s.padLen := rfl
@[simp] theorem State.feedStep_pad (s : State) (rest : List Block) : (s.feedStep rest).pad = s.pad := rfl
@[simp] theorem State.feedStep_err (s : State) (rest : List Block) : (s.feedStep rest).err = s.err := rfl
@[simp] theorem State.feedStep_estate (s : State) (rest : List Block) : (s.feedStep rest).estate = if rest = [] then .idle else .load := rfl
@[simp] theorem State.feedStep_jq (s : State) (rest : List Block) : (s.feedStep rest).jq = rest := rfl
@[simp] theorem State.feedStep_j (s : State) (rest : List Block) : (s.feedStep rest).j = s.j := rfl
@[simp] theorem State.feedStep_regs (s : State) (rest : List Block) : (s.feedStep rest).regs = s.regs := rfl
@[simp] theorem State.feedStep_tj (s : State) (rest : List Block) : (s.feedStep rest).tj = s.tj := rfl
@[simp] theorem State.feedStep_w (s : State) (rest : List Block) : (s.feedStep rest).w = s.w := rfl
@[simp] theorem State.feedStep_wp (s : State) (rest : List Block) : (s.feedStep rest).wp = s.wp := rfl
@[simp] theorem State.feedStep_rdata (s : State) (rest : List Block) : (s.feedStep rest).rdata = s.rdata := rfl
@[simp] theorem State.feedStep_draws (s : State) (rest : List Block) : (s.feedStep rest).draws = s.draws := rfl
@[simp] theorem State.feedStep_script (s : State) (rest : List Block) : (s.feedStep rest).script = s.script := rfl

/-! `collapsedJob` -/

@[simp] theorem State.collapsedJob_v (s : State) : (s.collapsedJob).v = s.eventual := rfl
@[simp] theorem State.collapsedJob_buf (s : State) : (s.collapsedJob).buf = s.buf := rfl
@[simp] theorem State.collapsedJob_bufcnt (s : State) : (s.collapsedJob).bufcnt = s.bufcnt := rfl
@[simp] theorem State.collapsedJob_totalbits (s : State) : (s.collapsedJob).totalbits = s.totalbits := rfl
@[simp] theorem State.collapsedJob_phase (s : State) : (s.collapsedJob).phase = s.phase := rfl
@[simp] theorem State.collapsedJob_fdig (s : State) : (s.collapsedJob).fdig = s.fdig := rfl
@[simp] theorem State.collapsedJob_flen (s : State) : (s.collapsedJob).flen = s.flen := rfl
@[simp] theorem State.collapsedJob_padLen (s : State) : (s.collapsedJob).padLen = s.padLen := rfl
@[simp] theorem State.collapsedJob_pad (s : State) : (s.collapsedJob).pad = s.pad := rfl
@[simp] theorem State.collapsedJob_err (s : State) : (s.collapsedJob).err = s.err := rfl
@[simp] theorem State.collapsedJob_estate (s : State) : (s.collapsedJob).estate = .idle := rfl
@[simp] theorem State.collapsedJob_jq (s : State) : (s.collapsedJob).jq = [] := rfl
@[simp] theorem State.collapsedJob_j (s : State) : (s.collapsedJob).j = s.j := rfl
@[simp] theorem State.collapsedJob_regs (s : State) : (s.collapsedJob).regs = s.regs := rfl
@[simp] theorem State.collapsedJob_tj (s : State) : (s.collapsedJob).tj = s.tj := rfl
@[simp] theorem State.collapsedJob_w (s : State) : (s.collapsedJob).w = s.w := rfl
@[simp] theorem State.collapsedJob_wp (s : State) : (s.collapsedJob).wp = s.wp := rfl
@[simp] theorem State.collapsedJob_rdata (s : State) : (s.collapsedJob).rdata = s.rdata := rfl
@[simp] theorem State.collapsedJob_draws (s : State) : (s.collapsedJob).draws = s.draws := rfl
@[simp] theorem State.collapsedJob_script (s : State) : (s.collapsedJob).script = s.script := rfl

/-! `platformReset` -/

@[simp] theorem State.platformReset_v (s : State) : (s.platformReset).v = State.reset.v := rfl
@[simp] theorem State.platformReset_buf (s : State) : (s.platformReset).buf = State.reset.buf := rfl
@[simp] theorem State.platformReset_bufcnt (s : State) : (s.platformReset).bufcnt = State.reset.bufcnt := rfl
@[simp] theorem State.platformReset_totalbits (s : State) : (s.platformReset).totalbits = State.reset.totalbits := rfl
@[simp] theorem State.platformReset_phase (s : State) : (s.platformReset).phase = State.reset.phase := rfl
@[simp] theorem State.platformReset_fdig (s : State) : (s.platformReset).fdig = State.reset.fdig := rfl
@[simp] theorem State.platformReset_flen (s : State) : (s.platformReset).flen = State.reset.flen := rfl
@[simp] theorem State.platformReset_padLen (s : State) : (s.platformReset).padLen = State.reset.padLen := rfl
@[simp] theorem State.platformReset_pad (s : State) : (s.platformReset).pad = State.reset.pad := rfl
@[simp] theorem State.platformReset_err (s : State) : (s.platformReset).err = State.reset.err := rfl
@[simp] theorem State.platformReset_estate (s : State) : (s.platformReset).estate = State.reset.estate := rfl
@[simp] theorem State.platformReset_jq (s : State) : (s.platformReset).jq = State.reset.jq := rfl
@[simp] theorem State.platformReset_j (s : State) : (s.platformReset).j = State.reset.j := rfl
@[simp] theorem State.platformReset_regs (s : State) : (s.platformReset).regs = State.reset.regs := rfl
@[simp] theorem State.platformReset_tj (s : State) : (s.platformReset).tj = State.reset.tj := rfl
@[simp] theorem State.platformReset_w (s : State) : (s.platformReset).w = State.reset.w := rfl
@[simp] theorem State.platformReset_wp (s : State) : (s.platformReset).wp = State.reset.wp := rfl
@[simp] theorem State.platformReset_rdata (s : State) : (s.platformReset).rdata = s.rdata := rfl
@[simp] theorem State.platformReset_draws (s : State) : (s.platformReset).draws = s.draws := rfl
@[simp] theorem State.platformReset_script (s : State) : (s.platformReset).script = s.script := rfl

end Sys2Proof.Machine
end

