-- ==== Sys2Proof/Laws/Ops.lean ====
section
/-! SUPPORT. What each shared operation can do, said once: the checked write, the read, absorbing, the engine
micro-step and turn, and the step. -/

namespace Sys2Proof.Machine

/-! ## Consistency of a few accessors -/

@[simp] theorem busy_eq_false_iff (s : State) : s.busy = false ↔ s.estate = .idle := by
  unfold State.busy; cases s.estate <;> simp

@[simp] theorem busy_eq_true_iff (s : State) : s.busy = true ↔ s.estate ≠ .idle := by
  unfold State.busy; cases s.estate <;> simp

/-- Raising an error as one record update. -/
theorem raiseError_eq (s : State) (e : ErrCode) :
    s.raiseError e = { s with err := if s.err = .none then e else s.err } := by
  unfold State.raiseError; split <;> rfl

/-! ## Writes and reads -/

@[simp] theorem firstFailing_nil : firstFailing [] = none := rfl

@[simp] theorem firstFailing_fail (e : ErrCode) (rest : List (Bool × ErrCode)) :
    firstFailing ((true, e) :: rest) = some e := rfl

@[simp] theorem firstFailing_pass (e : ErrCode) (rest : List (Bool × ErrCode)) :
    firstFailing ((false, e) :: rest) = firstFailing rest := rfl

/-- A checked write ends in the next state: an error recorded, or its effect. -/
theorem checkedWrite_cases (s : State) (checks : List (Bool × ErrCode)) (effect : State → State) :
    (∃ e, firstFailing checks = some e ∧ s.checkedWrite checks effect = .next (s.raiseError e)) ∨
    (firstFailing checks = none ∧ s.checkedWrite checks effect = .next (effect s)) := by
  unfold State.checkedWrite
  cases h : firstFailing checks with
  | none => exact .inr ⟨rfl, rfl⟩
  | some e => exact .inl ⟨e, rfl, rfl⟩

theorem checkedWrite_of_fail {s : State} {checks : List (Bool × ErrCode)} {effect : State → State}
    {e : ErrCode} (h : firstFailing checks = some e) :
    s.checkedWrite checks effect = .next (s.raiseError e) := by
  unfold State.checkedWrite; rw [h]

theorem checkedWrite_of_pass {s : State} {checks : List (Bool × ErrCode)} {effect : State → State}
    (h : firstFailing checks = none) : s.checkedWrite checks effect = .next (effect s) := by
  unfold State.checkedWrite; rw [h]

theorem hostRead_of_busy {s : State} (h : s.busy = true) (x : Word) : s.hostRead x = .next s.answerFree := by
  unfold State.hostRead; rw [h]; rfl

theorem hostRead_of_idle {s : State} (h : s.busy = false) (x : Word) : s.hostRead x = .next (s.answer x) := by
  unfold State.hostRead; rw [h]; rfl

/-- A read ends in the next state, with at most the read-data lines and the draw counter changed. -/
theorem hostRead_cases (s : State) (x : Word) :
    (s.busy = true ∧ s.hostRead x = .next s.answerFree) ∨
    (s.busy = false ∧ s.hostRead x = .next (s.answer x)) := by
  cases h : s.busy with
  | true => exact .inl ⟨rfl, hostRead_of_busy h x⟩
  | false => exact .inr ⟨rfl, hostRead_of_idle h x⟩

/-! ## Absorbing -/

theorem absorb_of_room {s : State} (h : s.bufcnt.toNat < 63) (b : Byte) : s.absorb b = s.bufferByte b := by
  unfold State.absorb; rw [if_neg (by omega)]

theorem absorb_of_full {s : State} (h : s.bufcnt.toNat = 63) (b : Byte) : s.absorb b = s.completeBlock b := by
  unfold State.absorb; rw [if_pos (by omega)]

/-- Absorbing either buffers the byte or completes the block. -/
theorem absorb_cases (s : State) (b : Byte) :
    (s.bufcnt.toNat < 63 ∧ s.absorb b = s.bufferByte b) ∨
    (s.bufcnt.toNat = 63 ∧ s.absorb b = s.completeBlock b) := by
  have := s.bufcnt.isLt
  by_cases h : s.bufcnt.toNat < 63
  · exact .inl ⟨h, absorb_of_room h b⟩
  · exact .inr ⟨by omega, absorb_of_full (by omega) b⟩

@[simp] theorem absorbAll_nil (s : State) : s.absorbAll [] = s := rfl

@[simp] theorem absorbAll_cons (s : State) (b : Byte) (bs : List Byte) :
    s.absorbAll (b :: bs) = (s.absorb b).absorbAll bs := rfl

theorem absorbAll_append (s : State) (as bs : List Byte) :
    s.absorbAll (as ++ bs) = (s.absorbAll as).absorbAll bs := List.foldl_append

/-- The state outside the buffer, the counters and the queue is the same. -/
def SameOutsideBuffer (s t : State) : Prop :=
  t.v = s.v ∧ t.phase = s.phase ∧ t.fdig = s.fdig ∧ t.flen = s.flen ∧ t.padLen = s.padLen ∧ t.pad = s.pad ∧
  t.err = s.err ∧ t.j = s.j ∧ t.regs = s.regs ∧ t.tj = s.tj ∧ t.w = s.w ∧ t.wp = s.wp ∧ t.rdata = s.rdata ∧
  t.draws = s.draws ∧ t.script = s.script

/-- Absorbing a byte leaves everything but the buffer, the counters and the queue as it was. -/
theorem absorb_frame (s : State) (b : Byte) : SameOutsideBuffer s (s.absorb b) := by
  rcases absorb_cases s b with ⟨_, h⟩ | ⟨_, h⟩ <;> simp [h, SameOutsideBuffer]

/-- The same for a byte string. -/
theorem absorbAll_frame (bs : List Byte) (s : State) : SameOutsideBuffer s (s.absorbAll bs) := by
  induction bs generalizing s with
  | nil => simp [SameOutsideBuffer]
  | cons b bs ih =>
    have h1 := absorb_frame s b
    have h2 := ih (s.absorb b)
    simp only [absorbAll_cons, SameOutsideBuffer] at *
    simp [h1, h2]

/-! ## The engine -/

/-- Everything a micro-step can do. -/
theorem microStep_cases {s t : State} (h : microStep s = .next t) :
    (s.estate = .idle ∧ t = s) ∨
    (∃ blk rest, s.estate = .load ∧ s.jq = blk :: rest ∧ t = s.loadStep blk) ∨
    (s.estate = .round ∧ t = s.roundStep) ∨
    (∃ blk rest, s.estate = .feed ∧ s.jq = blk :: rest ∧ t = s.feedStep rest) := by
  unfold microStep at h
  cases he : s.estate with
  | idle => rw [he] at h; exact .inl ⟨rfl, (Host.Outcome.next.inj h).symm⟩
  | load =>
    rw [he] at h
    cases hq : s.jq with
    | nil => rw [hq] at h; cases h
    | cons blk rest =>
      rw [hq] at h
      exact .inr (.inl ⟨blk, rest, rfl, rfl, (Host.Outcome.next.inj h).symm⟩)
  | round => rw [he] at h; exact .inr (.inr (.inl ⟨rfl, (Host.Outcome.next.inj h).symm⟩))
  | feed =>
    rw [he] at h
    cases hq : s.jq with
    | nil => rw [hq] at h; cases h
    | cons blk rest =>
      rw [hq] at h
      exact .inr (.inr (.inr ⟨blk, rest, rfl, rfl, (Host.Outcome.next.inj h).symm⟩))

theorem microStep_idle {s : State} (h : s.estate = .idle) : microStep s = .next s := by
  unfold microStep; rw [h]

theorem microStep_load {s : State} {blk : Block} {rest : List Block} (h : s.estate = .load)
    (hq : s.jq = blk :: rest) : microStep s = .next (s.loadStep blk) := by
  unfold microStep; rw [h, hq]

theorem microStep_round {s : State} (h : s.estate = .round) : microStep s = .next s.roundStep := by
  unfold microStep; rw [h]

theorem microStep_feed {s : State} {blk : Block} {rest : List Block} (h : s.estate = .feed)
    (hq : s.jq = blk :: rest) : microStep s = .next (s.feedStep rest) := by
  unfold microStep; rw [h, hq]

@[simp] theorem engineTurn_zero (s : State) : engineTurn 0 s = .next s := rfl

theorem engineTurn_succ {s t : State} (n : Nat) (h : microStep s = .next t) :
    engineTurn (n + 1) s = engineTurn n t := by
  simp [engineTurn, h]

/-- A property that every micro-step keeps, an engine turn keeps. -/
theorem engineTurn_induction {P : State → Prop}
    (hstep : ∀ s t, P s → microStep s = .next t → P t) :
    ∀ (n : Nat) (s t : State), P s → engineTurn n s = .next t → P t := by
  intro n
  induction n with
  | zero => intro s t hs h; cases h; exact hs
  | succ n ih =>
    intro s t hs h
    simp only [engineTurn] at h
    cases hm : microStep s with
    | next u => rw [hm] at h; exact ih u t (hstep s u hs hm) h
    | fault f => rw [hm] at h; cases h
    | refused r => rw [hm] at h; cases h

/-! ## The step -/

theorem ifConsistent_of_none {s : State} (h : s.inconsistency = none) (next : State → Result) :
    s.ifConsistent next = next s := by
  unfold State.ifConsistent; rw [h]

/-- Consistency does not depend on the script. -/
@[simp] theorem inconsistency_script (s : State) (l : List Turn) :
    State.inconsistency { s with script := l } = s.inconsistency := rfl

/-- Everything a step that answers a next state can be: an idle turn, a reset, an engine turn, or a host
operation. -/
theorem step_cases {s t : State} (h : step s = .next t) :
    (s.script = [] ∧ s.inconsistency = none ∧ microStep s = .next t) ∨
    (∃ rest, s.script = .reset :: rest ∧ t = State.platformReset { s with script := rest }) ∨
    (∃ n rest, s.script = .engine n :: rest ∧ s.inconsistency = none ∧
      engineTurn n { s with script := rest } = .next t) ∨
    (∃ a rest i, s.script = .host a :: rest ∧ s.inconsistency = none ∧
      decodeAccess a.bytes a.word = .ok i ∧ exec i { s with script := rest } = .next t) := by
  unfold step nextTurn at h
  cases hs : s.script with
  | nil =>
    rw [hs] at h
    simp only [idleTurn, State.ifConsistent] at h
    cases hi : s.inconsistency with
    | none => rw [hi] at h; exact .inl ⟨rfl, rfl, h⟩
    | some f => rw [hi] at h; cases h
  | cons turn rest =>
    rw [hs] at h
    cases turn with
    | reset => exact .inr (.inl ⟨rest, rfl, (Host.Outcome.next.inj h).symm⟩)
    | engine n =>
      simp only [takeTurn, State.ifConsistent, inconsistency_script] at h
      cases hi : s.inconsistency with
      | none => rw [hi] at h; exact .inr (.inr (.inl ⟨n, rest, rfl, rfl, h⟩))
      | some f => rw [hi] at h; cases h
    | host a =>
      simp only [takeTurn, State.ifConsistent, inconsistency_script] at h
      cases hi : s.inconsistency with
      | some f => rw [hi] at h; cases h
      | none =>
        rw [hi] at h
        simp only [hostTurn] at h
        cases hd : decodeAccess a.bytes a.word with
        | error e => rw [hd] at h; cases h
        | ok i => rw [hd] at h; exact .inr (.inr (.inr ⟨a, rest, i, rfl, rfl, hd, h⟩))

end Sys2Proof.Machine
end

