-- ==== Sys2Proof/Laws/PerInstr.lean ====
section
/-! SUPPORT. Per-instruction statements about `Instr` as syntax. Family `EncodedFields`: the fields of an
operation's `BUS41` word are its direction, offset and data (30_encoding.md R90). -/

namespace Sys2Proof

/-- The bits of a `BUS41` word: data below, then the offset, then the direction (30_encoding.md R90). -/
theorem busWord_getLsbD (dir : Dir) (off : BitVec 8) (data : Word) (k : Nat) :
    (busWord dir off data).getLsbD k =
      if k < 32 then data.getLsbD k
      else if k - 32 < 8 then off.getLsbD (k - 32) else dir.bit.getLsbD (k - 32 - 8) := by
  have h := BitVec.getLsbD_append (x := dir.bit ++ off) (y := data) (i := k)
  rw [BitVec.getLsbD_append (x := dir.bit) (y := off) (i := k - 32)] at h
  split at h <;> rename_i hk
  · rw [if_pos hk]; exact h
  · rw [if_neg hk]; exact h

theorem busData_busWord (dir : Dir) (off : BitVec 8) (data : Word) :
    busData (busWord dir off data) = data := by
  unfold busData
  apply BitVec.eq_of_getLsbD_eq
  intro k hk
  rw [BitVec.getLsbD_extractLsb', busWord_getLsbD]
  simp [hk]

theorem busOff_busWord (dir : Dir) (off : BitVec 8) (data : Word) : busOff (busWord dir off data) = off := by
  unfold busOff
  apply BitVec.eq_of_getLsbD_eq
  intro k hk
  rw [BitVec.getLsbD_extractLsb', busWord_getLsbD]
  simp [hk]

theorem busDir_busWord (dir : Dir) (off : BitVec 8) (data : Word) : busDir (busWord dir off data) = dir := by
  have h : (busWord dir off data).extractLsb' 40 1 = dir.bit := by
    apply BitVec.eq_of_getLsbD_eq
    intro k hk
    rw [BitVec.getLsbD_extractLsb', busWord_getLsbD]
    have : k = 0 := by omega
    subst this
    simp
  unfold busDir
  rw [h]
  cases dir <;> rfl

namespace Laws.EncodedFields

/-- The fields of the encoded word are the operation's. -/
def Statement (i : Instr) : Prop :=
  busDir (encode i) = i.dir ∧ busOff (encode i) = i.off ∧ busData (encode i) = i.data

theorem holds (i : Instr) : Statement i := ⟨busDir_busWord _ _ _, busOff_busWord _ _ _, busData_busWord _ _ _⟩

theorem wrCmdInit : Statement .wrCmdInit := holds _

theorem wrCmdFinalize : Statement .wrCmdFinalize := holds _

theorem wrCmdForgeInit : Statement .wrCmdForgeInit := holds _

theorem wrCmdClearErr : Statement .wrCmdClearErr := holds _

theorem wrCmdReserved (d : Word) : Statement (.wrCmdReserved d) := holds _

theorem wrDinByte (d : Word) : Statement (.wrDinByte d) := holds _

theorem wrDinWord (d : Word) : Statement (.wrDinWord d) := holds _

theorem wrFlenLo (d : Word) : Statement (.wrFlenLo d) := holds _

theorem wrFlenHi (d : Word) : Statement (.wrFlenHi d) := holds _

theorem wrFdig (k : BitVec 3) (d : Word) : Statement (.wrFdig k d) := holds _

theorem rdStatus : Statement .rdStatus := holds _

theorem rdTotalbitsLo : Statement .rdTotalbitsLo := holds _

theorem rdTotalbitsHi : Statement .rdTotalbitsHi := holds _

theorem rdFlenLo : Statement .rdFlenLo := holds _

theorem rdFlenHi : Statement .rdFlenHi := holds _

theorem rdDigest (k : BitVec 3) : Statement (.rdDigest k) := holds _

theorem rdFdig (k : BitVec 3) : Statement (.rdFdig k) := holds _

theorem rdPadLen : Statement .rdPadLen := holds _

theorem rdPad (k : BitVec 5) : Statement (.rdPad k) := holds _

theorem wrStatus (d : Word) : Statement (.wrStatus d) := holds _

theorem wrTotalbitsLo (d : Word) : Statement (.wrTotalbitsLo d) := holds _

theorem wrTotalbitsHi (d : Word) : Statement (.wrTotalbitsHi d) := holds _

theorem wrDigest (k : BitVec 3) (d : Word) : Statement (.wrDigest k d) := holds _

theorem wrPadLen (d : Word) : Statement (.wrPadLen d) := holds _

theorem wrPad (k : BitVec 5) (d : Word) : Statement (.wrPad k d) := holds _

theorem rdCmd : Statement .rdCmd := holds _

theorem rdDinByte : Statement .rdDinByte := holds _

theorem rdDinWord : Statement .rdDinWord := holds _

theorem rsvd64 (r : Dir) (d : Word) : Statement (.rsvd64 r d) := holds _

theorem rsvd68 (r : Dir) (k : BitVec 1) (d : Word) : Statement (.rsvd68 r k d) := holds _

theorem rsvd70 (r : Dir) (k : BitVec 2) (d : Word) : Statement (.rsvd70 r k d) := holds _

end Laws.EncodedFields

end Sys2Proof
end

