-- ==== Sys2Proof/Tests/Slice0.lean ====
section
/-! SUPPORT. The model's own tests: the well-formedness checks, one decoded word for every constructor, one or two
steps for every operation, and for every statement with hypotheses a state and operands that meet them. Every
expected value is from 95_test_vectors.md, an example of the rule named, or worked out by hand from the rule. -/

namespace Sys2Proof.Tests

open Sys2Proof Sys2Proof.Machine

/-! ## Helpers -/

/-- The outcome is a next state with the property. -/
def isNext (o : Result) (p : State → Bool) : Bool :=
  match o with
  | .next t => p t
  | .fault _ => false
  | .refused _ => false

/-- One step with the table word `w` placed as the next turn. -/
def run1 (s : State) (w : Nat) : Result := step (s.withFetchWord 48 w)

/-- A context from the initial vector with `n` bytes buffered, each of them 0x61. -/
def active (n : BitVec 6) : State :=
  { State.reset with v := iv, phase := .active, bufcnt := n, buf := Vector.replicate 64 0x61 }

/-- The block of 64 bytes 0x61. -/
def blockA : Block := Vector.replicate 64 0x61

/-- A job of one block, not yet started. -/
def loading : State := { active 0 with jq := [blockA], estate := .load, totalbits := 512 }

/-- The same job in round `j`. -/
def inRound (j : BitVec 6) : State :=
  { loading with
    estate := .round, j := j, tj := roundConstant j, w := expandW blockA, wp := expandWp (expandW blockA)
    regs := roundsUpTo (expandW blockA) (expandWp (expandW blockA)) (workingOf iv) j.toNat }

/-- The same job before FEED. -/
def feeding : State :=
  { inRound 63 with
    estate := .feed, regs := roundsUpTo (expandW blockA) (expandWp (expandW blockA)) (workingOf iv) 64 }

/-- A job of two blocks, started by `FINALIZE`. -/
def twoBlocks : State := { loading with phase := .finalized, jq := [blockA, blockA], totalbits := 448 }

/-- A finalized context whose job is done. -/
def finalized : State := { State.reset with v := iv, phase := .finalized, totalbits := 24 }

/-- A forged context at the length limit, `n` bytes buffered (95_test_vectors.md L2-SBP-6). -/
def atLimit (n : BitVec 6) : State := { active n with totalbits := 0xfffffffffffffe00 }

/-! ## Well-formedness -/

theorem test_wellFormed_refuses_command_1 : (Instr.wrCmdReserved 1).wellFormed = false := by decide
theorem test_wellFormed_refuses_command_2 : (Instr.wrCmdReserved 2).wellFormed = false := by decide
theorem test_wellFormed_refuses_command_3 : (Instr.wrCmdReserved 3).wellFormed = false := by decide
theorem test_wellFormed_refuses_command_4 : (Instr.wrCmdReserved 4).wellFormed = false := by decide
theorem test_wellFormed_reserved_command : (Instr.wrCmdReserved 0x104).wellFormed = true := by decide
theorem test_wellFormed_refuses_read_data_64 : (Instr.rsvd64 .rd 1).wellFormed = false := by decide
theorem test_wellFormed_refuses_read_data_68 : (Instr.rsvd68 .rd 1 1).wellFormed = false := by decide
theorem test_wellFormed_refuses_read_data_70 : (Instr.rsvd70 .rd 3 1).wellFormed = false := by decide
theorem test_wellFormed_write_data : (Instr.rsvd64 .wr 1).wellFormed = true := by decide

/-! ## Decoding: one word for every constructor, from 30_encoding.md R96 and the encodings of files 43 to 45 -/

theorem test_decode_wrCmdInit : decodeTableWord 48 0x10000000001 = some .wrCmdInit := by decide
theorem test_decode_wrCmdFinalize : decodeTableWord 48 0x10000000002 = some .wrCmdFinalize := by decide
theorem test_decode_wrCmdForgeInit : decodeTableWord 48 0x10000000003 = some .wrCmdForgeInit := by decide
theorem test_decode_wrCmdClearErr : decodeTableWord 48 0x10000000004 = some .wrCmdClearErr := by decide
theorem test_decode_wrCmdReserved : decodeTableWord 48 0x10000000104 = some (.wrCmdReserved 0x104) := by decide
theorem test_decode_wrDinByte : decodeTableWord 48 0x1080000007A = some (.wrDinByte 0x7a) := by decide
theorem test_decode_wrDinWord : decodeTableWord 48 0x10C61626364 = some (.wrDinWord 0x61626364) := by decide
theorem test_decode_wrFlenLo : decodeTableWord 48 0x11800000003 = some (.wrFlenLo 3) := by decide
theorem test_decode_wrFlenHi : decodeTableWord 48 0x11C00000005 = some (.wrFlenHi 5) := by decide
theorem test_decode_wrFdig : decodeTableWord 48 0x14CDC10E4E2 = some (.wrFdig 3 0xdc10e4e2) := by decide
theorem test_decode_rdStatus : decodeTableWord 48 0x00400000000 = some .rdStatus := by decide
theorem test_decode_rdTotalbitsLo : decodeTableWord 48 0x01000000000 = some .rdTotalbitsLo := by decide
theorem test_decode_rdTotalbitsHi : decodeTableWord 48 0x01400000000 = some .rdTotalbitsHi := by decide
theorem test_decode_rdFlenLo : decodeTableWord 48 0x01800000000 = some .rdFlenLo := by decide
theorem test_decode_rdFlenHi : decodeTableWord 48 0x01C00000000 = some .rdFlenHi := by decide
theorem test_decode_rdDigest : decodeTableWord 48 0x03C00000000 = some (.rdDigest 7) := by decide
theorem test_decode_rdFdig : decodeTableWord 48 0x04400000000 = some (.rdFdig 1) := by decide
theorem test_decode_rdPadLen : decodeTableWord 48 0x06000000000 = some .rdPadLen := by decide
theorem test_decode_rdPad : decodeTableWord 48 0x0BC00000000 = some (.rdPad 15) := by decide
theorem test_decode_wrStatus : decodeTableWord 48 0x104FFFFFFFF = some (.wrStatus 0xffffffff) := by decide
theorem test_decode_wrTotalbitsLo : decodeTableWord 48 0x11000000001 = some (.wrTotalbitsLo 1) := by decide
theorem test_decode_wrTotalbitsHi : decodeTableWord 48 0x11400000001 = some (.wrTotalbitsHi 1) := by decide
theorem test_decode_wrDigest : decodeTableWord 48 0x13C00000001 = some (.wrDigest 7 1) := by decide
theorem test_decode_wrPadLen : decodeTableWord 48 0x16000000001 = some (.wrPadLen 1) := by decide
theorem test_decode_wrPad : decodeTableWord 48 0x1FC00000001 = some (.wrPad 31 1) := by decide
theorem test_decode_rdCmd : decodeTableWord 48 0x00000000000 = some .rdCmd := by decide
theorem test_decode_rdDinByte : decodeTableWord 48 0x00800000000 = some .rdDinByte := by decide
theorem test_decode_rdDinWord : decodeTableWord 48 0x00C00000000 = some .rdDinWord := by decide
theorem test_decode_rsvd64 : decodeTableWord 48 0x06400000000 = some (.rsvd64 .rd 0) := by decide
theorem test_decode_rsvd68 : decodeTableWord 48 0x16C00000001 = some (.rsvd68 .wr 1 1) := by decide
theorem test_decode_rsvd70 : decodeTableWord 48 0x17C00000001 = some (.rsvd70 .wr 3 1) := by decide

/-! Bit by bit (30_encoding.md R90): bit 40 `dir`, bits 39:32 `off`, bits 31:0 `data`; one word of each family. -/

theorem test_decode_bits_command :
    decodeTableWord 48 0b10000000000000000000000000000000000000010 = some .wrCmdFinalize := by decide
theorem test_decode_bits_data :
    decodeTableWord 48 0b10000110001100001011000100110001110000000 = some (.wrDinWord 0x61626380) := by decide
theorem test_decode_bits_forgery_input :
    decodeTableWord 48 0b10101110010000000000000000000000000000001 = some (.wrFdig 7 0x80000001) := by decide
theorem test_decode_bits_read :
    decodeTableWord 48 0b01000010000000000000000000000000000000000 = some (.rdPad 1) := by decide
theorem test_decode_bits_ignored :
    decodeTableWord 48 0b10001010000000000000000000000000000000001 = some (.wrTotalbitsHi 1) := by decide
theorem test_decode_bits_reserved :
    decodeTableWord 48 0b00111010000000000000000000000000000000000 = some (.rsvd70 .rd 1 0) := by decide
theorem test_read_data_is_dropped : decodeTableWord 48 0x00412345678 = some .rdStatus := by decide
theorem test_misaligned_is_no_operation : decodeTableWord 48 0x10100000000 = none := by decide
theorem test_bit_41_is_no_operation : decodeTableWord 48 0x20400000000 = none := by decide
theorem test_encode_init : encode .wrCmdInit = 0x10000000001 := by decide
theorem test_encode_read_pad : encode (.rdPad 16) = 0x0C000000000 := by decide

/-! ## Primitives and the compression function (95_test_vectors.md L2-PR, L2-ME-1, L2-CF) -/

theorem test_rotl32 : rotl32 0x12345678 31 = 0x091a2b3c ∧ rotl32 0x12345678 0 = 0x12345678 := by decide
theorem test_ff1 : ff1 0x12345678 0x9abcdef0 0x0fedcba9 = 0x1abcdef8 := by decide
theorem test_gg1 : gg1 0x12345678 0x9abcdef0 0x0fedcba9 = 0x1ffddff1 := by decide
theorem test_p0 : p0 0x12345678 = 0xd6688234 := by decide
theorem test_p1 : p1 0x12345678 = 0x05014549 := by decide
theorem test_be64 : be64 512 = [0, 0, 0, 0, 0, 0, 2, 0] := by decide
theorem test_roundConstant : roundConstant 15 = 0x228cbce6 ∧ roundConstant 16 = 0x9d8a7a87 := by decide

/-- The block of `"abc"`, padded (L2-ME-1). -/
def blockAbc : Block := (((Vector.replicate 64 0).set 0 0x61).set 1 0x62 |>.set 2 0x63 |>.set 3 0x80).set 63 0x18

theorem test_expandW_first : nextW (words blockAbc.toList) = 0x9092e200 := by decide

/-- The first round of the `"abc"` block (L2-CF-2). -/
theorem test_round_0 : roundFn 0 firstTJ 0x61626380 0x61626380 (workingOf iv) =
    ⟨0xb9edc12b, 0x7380166f, 0x29657292, 0x172442d7, 0xb2ad29f4, 0xa96f30bc, 0xc550b189, 0xe38dee4d⟩ := by decide

/-- Round 16, the first with `FF1` and `GG1`, by `W[16] = 9092e200` and `W'[16] = 9092e200` (L2-ME-1, L2-CF-2). -/
theorem test_round_16 : roundFn 16 0x9d8a7a87 0x9092e200 0x9092e200
    ⟨0x34d1691e, 0x7c529778, 0x92b57849, 0x979ab113, 0x61f99646, 0x3ee95933, 0x2aa0d251, 0xdb131b86⟩ =
    ⟨0x796afab1, 0x34d1691e, 0xa52ef0f8, 0x92b57849, 0x067550f5, 0x61f99646, 0xc999f74a, 0x2aa0d251⟩ := by decide

theorem test_padLength : padLength 3 = 61 ∧ padLength 55 = 9 ∧ padLength 56 = 72 ∧ padLength 64 = 64 := by decide
theorem test_padBytes_55 : padBytes 55 = [0x80, 0, 0, 0, 0, 0, 0, 1, 0xb8] := by decide

/-! ## One step of each operation -/

/-- 43_stream_padding.md R182. -/
theorem test_step_init :
    isNext (run1 State.reset 0x10000000001) (fun t => t.statusWord == 0x00000002 && t.v[0] == 0x7380166f) = true := by decide
/-- L2-SBP-5, last row. -/
theorem test_step_init_abandons :
    isNext (run1 (active 1) 0x10000000001) (fun t => t.statusWord == 0x00000002 && t.totalbits == 0) = true := by decide
/-- `b = 55` gives one block (43_stream_padding.md R188), here with the length 440. -/
theorem test_step_finalize_one_block :
    isNext (run1 (active 55) 0x10000000002) (fun t => t.statusWord == 0x00000005 && t.totalbits == 440 && t.jq.length == 1 && (t.jq.headD blockA).toList.drop 54 == [0x61, 0x80, 0, 0, 0, 0, 0, 0, 1, 0xb8]) = true := by decide
/-- `b = 56` gives two blocks (43_stream_padding.md R188). -/
theorem test_step_finalize_two_blocks :
    isNext (run1 (active 56) 0x10000000002) (fun t => t.statusWord == 0x00000005 && t.totalbits == 448 && t.jq.length == 2 && (t.jq.headD blockA).toList.drop 55 == [0x61, 0x80, 0, 0, 0, 0, 0, 0, 0]) = true := by decide
/-- L2-SR-1. -/
theorem test_step_forge_init :
    isNext (run1 { State.reset with flen := 3, fdig := iv } 0x10000000003) (fun t => t.statusWord == 0x00000002 && t.totalbits == 512 && t.padLen == 61 && t.pad[0] == 0x80000000 && t.pad[15] == 0x18000000 && t.v == iv) = true := by decide
/-- 44_digest_forgery.md R216. -/
theorem test_step_forge_init_overflow :
    isNext (run1 { State.reset with flen := 0x1fffffffffffffb8 } 0x10000000003) (fun t => t.statusWord == 0x00000020 && t.totalbits == 0 && t.padLen == 0) = true := by decide
/-- L2-CT. -/
theorem test_step_clear_err :
    isNext (run1 { State.reset with err := .badCommand } 0x10000000004) (fun t => t.statusWord == 0) = true := by decide
/-- L2-CT: accepted while busy. -/
theorem test_step_clear_err_busy :
    isNext (run1 { twoBlocks with err := .busy } 0x10000000004) (fun t => t.statusWord == 0x00000005) = true := by decide
/-- P4, line 3, from no error. -/
theorem test_step_reserved_command :
    isNext (run1 State.reset 0x10000000105) (fun t => t.statusWord == 0x00000050) = true := by decide
/-- L2-CT. -/
theorem test_step_reserved_command_busy :
    isNext (run1 twoBlocks 0x10000000104) (fun t => t.statusWord == 0x00000045) = true := by decide
/-- 43_stream_padding.md R184. -/
theorem test_step_din_byte :
    isNext (run1 { active 0 with buf := Vector.replicate 64 0 } 0x10812345661) (fun t => t.statusWord == 0x00000102 && t.buf[0] == 0x61 && t.buf[1] == 0) = true := by decide
/-- L2-SBP-6. -/
theorem test_step_din_byte_overflow :
    isNext (run1 (atLimit 63) 0x10800000000) (fun t => t.statusWord == 0x00003F22) = true := by decide
/-- L2-SBP-4, k = 59. -/
theorem test_step_din_word_59 :
    isNext (run1 (active 59) 0x10C62636465) (fun t => t.statusWord == 0x00003F02 && t.buf[62] == 0x65) = true := by decide
/-- L2-SBP-4, k = 62. -/
theorem test_step_din_word_62 :
    isNext (run1 (active 62) 0x10C62636465) (fun t => t.statusWord == 0x00000203 && t.totalbits == 512 && (t.jq.headD blockA).toList.drop 60 == [0x61, 0x61, 0x62, 0x63] && t.buffered == [0x64, 0x65]) = true := by decide
/-- 44_digest_forgery.md R218. -/
theorem test_step_flen_lo :
    isNext (run1 { State.reset with flen := 0x1111111122222222 } 0x11800000003) (fun t => t.flen == 0x1111111100000003) = true := by decide
/-- L2-CT. -/
theorem test_step_flen_lo_busy :
    isNext (run1 twoBlocks 0x11800000005) (fun t => t.statusWord == 0x00000045 && t.flen == 0) = true := by decide
/-- 44_digest_forgery.md R218. -/
theorem test_step_flen_hi :
    isNext (run1 { State.reset with flen := 0x1111111122222222 } 0x11C12345678) (fun t => t.flen == 0x1234567822222222) = true := by decide
/-- 44_digest_forgery.md R218. -/
theorem test_step_fdig :
    isNext (run1 State.reset 0x144DEADBEEF) (fun t => t.fdig.toList == [0, 0xdeadbeef, 0, 0, 0, 0, 0, 0]) = true := by decide
/-- 30_encoding.md R98. -/
theorem test_step_rd_status :
    isNext (run1 (active 3) 0x00400000000) (fun t => t.rdata == 0x00000302) = true := by decide
/-- 30_encoding.md R98. -/
theorem test_step_rd_status_busy :
    isNext (run1 twoBlocks 0x00400000000) (fun t => t.rdata == 0x00000005) = true := by decide
/-- 45_control.md R242. -/
theorem test_step_rd_totalbits_lo :
    isNext (run1 { State.reset with totalbits := 0x0123456789abcdef } 0x01000000000) (fun t => t.rdata == 0x89abcdef) = true := by decide
/-- 45_control.md R242. -/
theorem test_step_rd_totalbits_hi :
    isNext (run1 { State.reset with totalbits := 0x0123456789abcdef } 0x01400000000) (fun t => t.rdata == 0x01234567) = true := by decide
/-- 44_digest_forgery.md R220. -/
theorem test_step_rd_flen_lo :
    isNext (run1 { State.reset with flen := 0x0123456789abcdef } 0x01800000000) (fun t => t.rdata == 0x89abcdef) = true := by decide
/-- 44_digest_forgery.md R220. -/
theorem test_step_rd_flen_hi :
    isNext (run1 { State.reset with flen := 0x0123456789abcdef } 0x01C00000000) (fun t => t.rdata == 0x01234567) = true := by decide
/-- 44_digest_forgery.md R211, after `INIT`. -/
theorem test_step_rd_digest :
    isNext (run1 (active 0) 0x03C00000000) (fun t => t.rdata == 0xb0fb0e4e) = true := by decide
/-- 44_digest_forgery.md R220. -/
theorem test_step_rd_fdig :
    isNext (run1 { State.reset with fdig := iv } 0x04400000000) (fun t => t.rdata == 0x4914b2b9) = true := by decide
/-- P3, line 14. -/
theorem test_step_rd_pad_len :
    isNext (run1 { State.reset with padLen := 61 } 0x06000000000) (fun t => t.rdata == 0x0000003D) = true := by decide
/-- P3, line 16. -/
theorem test_step_rd_pad :
    isNext (run1 { State.reset with pad := padStore 3 } 0x0BC00000000) (fun t => t.rdata == 0x18000000) = true := by decide
/-- 44_digest_forgery.md R219. -/
theorem test_step_rd_pad_55 :
    isNext (run1 { State.reset with pad := padStore 55 } 0x08800000000) (fun t => t.rdata == 0xb8000000) = true := by decide
/-- P4, line 9. -/
theorem test_step_wr_status :
    isNext (run1 (active 0) 0x104FFFFFFFF) (fun t => t.statusWord == 0x00000002) = true := by decide
/-- 45_control.md R247. -/
theorem test_step_wr_totalbits_lo :
    isNext (run1 (active 0) 0x11000000001) (fun t => t.totalbits == 0 && t.err == .none) = true := by decide
/-- 45_control.md R247. -/
theorem test_step_wr_totalbits_hi :
    isNext (run1 (active 0) 0x11400000001) (fun t => t.totalbits == 0 && t.err == .none) = true := by decide
/-- L2-CT. -/
theorem test_step_wr_digest :
    isNext (run1 (active 0) 0x12000000000) (fun t => t.statusWord == 0x00000002 && t.v == iv) = true := by decide
/-- 45_control.md R247, while busy. -/
theorem test_step_wr_pad_len :
    isNext (run1 twoBlocks 0x16000000001) (fun t => t.padLen == 0 && t.err == .none) = true := by decide
/-- 45_control.md R247, while busy. -/
theorem test_step_wr_pad :
    isNext (run1 twoBlocks 0x1FC00000001) (fun t => t.pad[31] == 0 && t.err == .none) = true := by decide
/-- L2-CT. -/
theorem test_step_rd_cmd :
    isNext (run1 { active 0 with rdata := 7 } 0x00000000000) (fun t => t.rdata == 0 && t.statusWord == 0x00000002) = true := by decide
/-- 45_control.md R247. -/
theorem test_step_rd_din_byte :
    isNext (run1 { active 0 with rdata := 7 } 0x00800000000) (fun t => t.rdata == 0) = true := by decide
/-- L2-CT. -/
theorem test_step_rd_din_word :
    isNext (run1 { active 0 with rdata := 7 } 0x00C00000000) (fun t => t.rdata == 0) = true := by decide
/-- L2-CT. -/
theorem test_step_rsvd_64 :
    isNext (run1 { active 0 with rdata := 7 } 0x06400000000) (fun t => t.rdata == 0) = true := by decide
/-- 45_control.md R247. -/
theorem test_step_rsvd_68 :
    isNext (run1 { active 0 with rdata := 7 } 0x06C00000000) (fun t => t.rdata == 0) = true := by decide
/-- L2-CT: ignored, the read-data lines included. -/
theorem test_step_rsvd_7c :
    isNext (run1 { active 0 with rdata := 7 } 0x17C00000001) (fun t => t.statusWord == 0x00000002 && t.rdata == 7) = true := by decide

/-! ## The engine, the reset and the stops -/

/-- 42_compression.md R164. -/
theorem test_load : isNext (step loading) (fun t => t.statusWord == 0x00000003 && t.regs.a == 0x7380166f) = true := by
  decide

/-- 42_compression.md R165: after round 63, FEED is next and `j` stays 63. -/
theorem test_last_round : isNext (step (inRound 63)) (fun t => t.estate == .feed && t.j == 63) = true := by decide

/-- 42_compression.md R166: FEED of the last block. -/
theorem test_feed : isNext (step feeding) (fun t => t.statusWord == 0x00000002 && t.jq.isEmpty) = true := by decide

/-- 70_reset_and_hazards.md R290, L2-RS-2. -/
theorem test_reset_in_job :
    isNext (step { inRound 10 with script := [.reset] }) (fun t => t == State.reset) = true := by decide

/-- 70_reset_and_hazards.md R292: after reset the core waits. -/
theorem test_reset_waits : isNext (step State.reset) (fun t => t == State.reset) = true := by decide

/-- 20_memory.md R67: a byte access, and a misaligned one. -/
theorem test_byte_access_refused :
    (match step { State.reset with script := [.host ⟨1, 0x00400000000⟩] } with
      | .refused (.badWidth 1) => true
      | _ => false) = true := by decide

theorem test_misaligned_refused :
    (match run1 State.reset 0x10100000000 with
      | .refused (.misaligned 1) => true
      | _ => false) = true := by decide

/-- 60_exceptions.md R268: no operation in an inconsistent state. -/
theorem test_illegal_phase_faults :
    (match run1 { State.reset with phase := .illegal } 0x00400000000 with
      | .fault .illegalPhase => true
      | _ => false) = true := by decide


/-! ## Witnesses: for every statement with hypotheses, a state and operands that meet them -/

/-! ### The invariant of the witness states -/

theorem engineInv_of_noJob {s : State} (h : s.jq = []) : s.EngineInv := by
  intro blk rest hq
  rw [h] at hq
  cases hq

theorem inv_active_63 : (active 63).Inv :=
  ⟨by unfold State.QueueInv; decide, by unfold State.ContextInv; decide, by unfold State.PadInv; decide,
    engineInv_of_noJob rfl⟩

theorem inv_active_60 : (active 60).Inv :=
  ⟨by unfold State.QueueInv; decide, by unfold State.ContextInv; decide, by unfold State.PadInv; decide,
    engineInv_of_noJob rfl⟩

theorem inv_active_55 : (active 55).Inv :=
  ⟨by unfold State.QueueInv; decide, by unfold State.ContextInv; decide, by unfold State.PadInv; decide,
    engineInv_of_noJob rfl⟩

theorem inv_active_56 : (active 56).Inv :=
  ⟨by unfold State.QueueInv; decide, by unfold State.ContextInv; decide, by unfold State.PadInv; decide,
    engineInv_of_noJob rfl⟩

theorem inv_atLimit_62 : (atLimit 62).Inv :=
  ⟨by unfold State.QueueInv; decide, by unfold State.ContextInv; decide, by unfold State.PadInv; decide,
    engineInv_of_noJob rfl⟩

theorem inv_atLimit_63 : (atLimit 63).Inv :=
  ⟨by unfold State.QueueInv; decide, by unfold State.ContextInv; decide, by unfold State.PadInv; decide,
    engineInv_of_noJob rfl⟩

theorem inv_finalized : finalized.Inv :=
  ⟨by unfold State.QueueInv; decide, by unfold State.ContextInv; decide, by unfold State.PadInv; decide,
    engineInv_of_noJob rfl⟩

theorem inv_loading : loading.Inv := by
  refine ⟨by unfold State.QueueInv; decide, by unfold State.ContextInv; decide, by unfold State.PadInv; decide, ?_⟩
  intro blk rest _
  exact ⟨fun h => (by cases h), fun h => (by cases h)⟩

theorem inv_twoBlocks : twoBlocks.Inv := by
  refine ⟨by unfold State.QueueInv; decide, by unfold State.ContextInv; decide, by unfold State.PadInv; decide, ?_⟩
  intro blk rest _
  exact ⟨fun h => (by cases h), fun h => (by cases h)⟩

theorem inv_inRound_15 : (inRound 15).Inv := by
  refine ⟨by unfold State.QueueInv; decide, by unfold State.ContextInv; decide, by unfold State.PadInv; decide, ?_⟩
  intro blk rest hq
  obtain rfl : blockA = blk := (List.cons.inj hq).1
  exact ⟨fun _ => ⟨rfl, rfl, rfl, rfl⟩, fun h => (by cases h)⟩

theorem inv_inRound_63 : (inRound 63).Inv := by
  refine ⟨by unfold State.QueueInv; decide, by unfold State.ContextInv; decide, by unfold State.PadInv; decide, ?_⟩
  intro blk rest hq
  obtain rfl : blockA = blk := (List.cons.inj hq).1
  exact ⟨fun _ => ⟨rfl, rfl, rfl, rfl⟩, fun h => (by cases h)⟩

theorem inv_feeding : feeding.Inv := by
  refine ⟨by unfold State.QueueInv; decide, by unfold State.ContextInv; decide, by unfold State.PadInv; decide, ?_⟩
  intro blk rest hq
  obtain rfl : blockA = blk := (List.cons.inj hq).1
  exact ⟨fun h => (by cases h), fun _ => rfl⟩

/-! ### Encoding -/

theorem witness_DecodeOfEncodeIsIdentity :
    (Instr.wrCmdReserved 0x104).wellFormed = true ∧ (Instr.rsvd70 .rd 3 0).wellFormed = true ∧
    (Instr.rsvd70 .wr 3 1).wellFormed = true ∧ (Instr.wrPad 31 0xffffffff).wellFormed = true := by decide

theorem witness_EncodeOfDecodeIsCanonicalWord :
    (match decode 0x00412345678 with | .ok .rdStatus => true | _ => false) = true ∧
    (match decode 0x10000000005 with | .ok (.wrCmdReserved d) => d == 5 | _ => false) = true := by decide

theorem witness_BusAddressReachesItsOffset :
    Config.base 0 + 256 ≤ Config.base 0 + 256 ∧ Config.base 1 - 1 < Config.base 1 :=
  ⟨Nat.le_refl _, by simp only [Config.base, Config.windowSlot]; omega⟩

theorem witness_AssemblerLinesDecodeToNamedOperations :
    RegName.pad 31 ≠ .cmd ∧ ([] : List Byte).length < 3 ∧ ([1, 2] : List Byte).length < 3 := by decide

/-- `FEED` of five bytes (30_encoding.md R102): the words of P2 and P5 for `"abcd"` and `"e"`, the first wait of
two reads. -/
theorem test_expand_feed : (Pseudo.feed [0x61, 0x62, 0x63, 0x64, 0x65] [1, 0]).expand =
    [0x10C61626364, 0x00400000000, 0x00400000000, 0x10800000065, 0x00400000000] := by decide

theorem witness_EveryAlignedWordHasOneTableRow :
    (busOff 0x1FC00000005).extractLsb' 0 2 = 0 ∧ (busOff 0x10000000004).extractLsb' 0 2 = 0 ∧
    (Instr.wrCmdReserved 0).row.covers 0x10000000004 = true := by decide

/-! ### The step -/

theorem witness_StepRunsTheDecodedOperation :
    State.inconsistency { active 3 with script := [.host ⟨4, 0x00400000000⟩, .reset] } = none ∧
    (match decodeAccess 4 0x00400000000 with | .ok .rdStatus => true | _ => false) = true ∧
    (active 3).inconsistency = none ∧ decodeTableWord 48 0x00400000000 = some .rdStatus := by decide

theorem witness_MisalignedOrNarrowAccessIsRefused :
    State.inconsistency { active 3 with script := [.host ⟨2, 0x00400000000⟩] } = none ∧ (2 : Nat) ≠ 4 ∧
    State.inconsistency { active 3 with script := [.host ⟨4, 0x00700000000⟩] } = none ∧
    (busOff 0x00700000000).extractLsb' 0 2 ≠ 0 ∧ (busOff 0x00100000000).extractLsb' 0 2 ≠ 0 := by decide

theorem witness_StepGivesTheEngineItsTurn :
    State.inconsistency { loading with script := [.engine 1] } = none ∧
    State.inconsistency { inRound 15 with script := [.engine 0, .engine 50] } = none ∧
    State.script { inRound 15 with script := [.engine 0, .engine 50] } = .engine 0 :: [.engine 50] ∧
    (loading.inconsistency = none ∧ loading.script = [] ∧ loading.busy = true) ∧
    ((active 3).inconsistency = none ∧ (active 3).script = [] ∧ (active 3).busy = false) := by decide

theorem witness_ResetTurnClearsTheInstance :
    State.script { inRound 15 with script := [.reset, .engine 1] } = .reset :: [.engine 1] ∧
    State.script { active 3 with phase := .illegal, script := [.reset] } = .reset :: [] := by decide

theorem witness_EveryReadAfterResetReturnsZero :
    Instr.rdStatus.dir = .rd ∧ (Instr.rdPad 31).dir = .rd ∧ (Instr.rsvd68 .rd 1 5).dir = .rd := by decide

theorem witness_InconsistentStateStopsUnlessReset :
    (State.jq { loading with jq := [blockA, blockA, blockA] }).length > 2 ∧
    (State.estate { loading with jq := [] } = .load ∧ State.jq { loading with jq := [] } = []) ∧
    State.phase { active 3 with phase := .illegal } = .illegal ∧
    State.err { active 3 with err := .code6 } = .code6 ∧ State.err { active 3 with err := .code7 } = .code7 ∧
    ∀ rest, State.script { active 3 with phase := .illegal } ≠ .reset :: rest :=
  ⟨by decide, by decide, by decide, by decide, by decide, fun rest h => by cases h⟩

/-! ### Invariants -/

theorem witness_EveryStepKeepsTheInvariant :
    loading.Inv ∧ isNext (step loading) (fun _ => true) = true ∧
    (inRound 15).Inv ∧ isNext (step (inRound 15)) (fun t => t.tj == roundConstant 16) = true ∧
    (inRound 63).Inv ∧ isNext (step (inRound 63)) (fun _ => true) = true ∧
    feeding.Inv ∧ isNext (step feeding) (fun _ => true) = true :=
  ⟨inv_loading, by decide, inv_inRound_15, by decide, inv_inRound_63, by decide, inv_feeding, by decide⟩

theorem witness_NoRunFromTheInvariantFaults : twoBlocks.Inv ∧ feeding.Inv := ⟨inv_twoBlocks, inv_feeding⟩

/-! ### Errors and the busy rule -/

theorem witness_ErrorIsStickyAndHasNoOtherEffect :
    isNext (exec .wrCmdFinalize finalized) (fun t => t.err != finalized.err) = true ∧
    isNext (exec (.wrCmdReserved 5) loading) (fun t => t.err != loading.err) = true ∧
    Instr.wrCmdFinalize ≠ .wrCmdClearErr := by decide

theorem witness_BusyWriteIsRejected :
    loading.busy = true ∧ (inRound 15).busy = true ∧ feeding.busy = true ∧
    State.busy { twoBlocks with err := .busy } = true := by decide

theorem witness_BusyReadReturnsAFreeValue :
    (inRound 15).busy = true ∧ (Instr.rdDigest 7).dir = .rd ∧ Instr.rdDigest 7 ≠ .rdStatus := by decide

theorem witness_ReadsHaveNoSideEffect :
    (Instr.rdStatus).dir = .rd ∧ isNext (exec .rdStatus loading) (fun _ => true) = true ∧
    (Instr.rdPad 0).dir = .rd ∧ isNext (exec (.rdPad 0) loading) (fun _ => true) = true := by decide

theorem witness_CommandWriteIsDecodedInOrder :
    loading.busy = true ∧ (3 : Word) ≠ 4 ∧ (active 3).busy = false ∧
    (0x00000104 : Word).extractLsb' 8 24 ≠ 0 ∧
    ((0x05 : Word).extractLsb' 0 8 ≠ 1 ∧ (0x05 : Word).extractLsb' 0 8 ≠ 2 ∧ (0x05 : Word).extractLsb' 0 8 ≠ 3 ∧
      (0x05 : Word).extractLsb' 0 8 ≠ 4) := by decide

/-! ### Reads -/

theorem witness_HalvesReadGiveTheWholeRegister :
    State.busy { State.reset with totalbits := 0x0123456789abcdef, flen := 0xffffffff00000001 } = false := by decide

theorem witness_DigestReadReturnsItsFourBytes : finalized.busy = false ∧ (active 63).busy = false := by decide

theorem witness_FdigReadsBackWhatWasWritten : (active 3).busy = false ∧ (0 : BitVec 3) ≠ 7 := by decide

theorem witness_FlenReadsBackWhatWasWritten :
    State.busy { active 3 with flen := 0x1111111122222222 } = false := by decide

theorem witness_PaddingReadsReturnTheStore :
    State.busy { active 0 with padLen := 72, pad := padStore 56 } = false ∧ (17 : BitVec 5).toNat < 18 ∧
    18 ≤ (18 : BitVec 5).toNat ∧ State.PadInv { active 0 with padLen := 72, pad := padStore 56 } :=
  ⟨by decide, by decide, by decide, by unfold State.PadInv; decide⟩

/-! ### Contexts -/

theorem witness_InitStartsAFreshContext : loading.busy = true ∧ (active 63).busy = false := by decide

theorem witness_ForgeInitStartsAForgedContext :
    loading.busy = true ∧
    (State.busy { finalized with flen := 0x1fffffffffffffb8 } = false ∧
      0x1fffffffffffffb7 < (State.flen { finalized with flen := 0x1fffffffffffffb8 }).toNat) ∧
    (State.busy { finalized with flen := 0x1fffffffffffffb7 } = false ∧
      (State.flen { finalized with flen := 0x1fffffffffffffb7 }).toNat ≤ 0x1fffffffffffffb7) := by decide

/-! ### Data writes -/

theorem witness_DataWriteChecksInOrder :
    twoBlocks.busy = true ∧ (finalized.busy = false ∧ finalized.phase ≠ .active) ∧
    ((atLimit 63).busy = false ∧ (atLimit 63).phase = .active ∧
      2 ^ 64 - 1 < (atLimit 63).totalbits.toNat + 8 * ((atLimit 63).bufcnt.toNat + 1)) ∧
    ((atLimit 60).busy = false ∧ (atLimit 60).phase = .active ∧
      2 ^ 64 - 1 < (atLimit 60).totalbits.toNat + 8 * ((atLimit 60).bufcnt.toNat + 4)) := by decide

theorem witness_DinByteAbsorbsOneByte :
    (∀ n ∈ [(0 : BitVec 6), 62, 63], (active n).busy = false ∧ (active n).phase = .active ∧
      (active n).totalbits.toNat + 8 * ((active n).bufcnt.toNat + 1) ≤ 2 ^ 64 - 1) ∧
    ((atLimit 62).busy = false ∧ (atLimit 62).phase = .active ∧
      (atLimit 62).totalbits.toNat + 8 * ((atLimit 62).bufcnt.toNat + 1) ≤ 2 ^ 64 - 1) := by decide

theorem witness_DinWordAbsorbsFourBytes :
    (∀ n ∈ [(0 : BitVec 6), 59, 60, 63], (active n).busy = false ∧ (active n).phase = .active ∧
      (active n).totalbits.toNat + 8 * ((active n).bufcnt.toNat + 4) ≤ 2 ^ 64 - 1) ∧
    ((atLimit 59).busy = false ∧ (atLimit 59).phase = .active ∧
      (atLimit 59).totalbits.toNat + 8 * ((atLimit 59).bufcnt.toNat + 4) ≤ 2 ^ 64 - 1) := by decide

/-! ### FINALIZE -/

theorem witness_FinalizeQueuesThePaddedBlocks :
    loading.busy = true ∧ (finalized.busy = false ∧ finalized.phase ≠ .active) ∧
    (∀ n ∈ [(0 : BitVec 6), 55, 56, 63], (active n).busy = false ∧ (active n).phase = .active ∧
      (active n).totalbits.toNat + 8 * (active n).bufcnt.toNat ≤ 2 ^ 64 - 1) ∧
    (atLimit 63).totalbits.toNat + 8 * (atLimit 63).bufcnt.toNat ≤ 2 ^ 64 - 1 ∧
    ((atLimit 62).Inv ∧ (atLimit 62).phase = .active) :=
  ⟨by decide, by decide, by decide, by decide, inv_atLimit_62, by decide⟩

theorem witness_FinalizeAppendsThePadding :
    ((active 55).busy = false ∧ (active 55).phase = .active ∧ 8 * 55 < 2 ^ 64 ∧
      (active 55).totalbits.toNat + 8 * (active 55).bufcnt.toNat = 8 * 55 ∧
      (active 55).totalbits.toNat % 512 = 0) ∧
    ((atLimit 56).busy = false ∧ (atLimit 56).phase = .active ∧ 8 * (2 ^ 61 - 8) < 2 ^ 64 ∧
      (atLimit 56).totalbits.toNat + 8 * (atLimit 56).bufcnt.toNat = 8 * (2 ^ 61 - 8) ∧
      (atLimit 56).totalbits.toNat % 512 = 0) := by decide

/-! ### Primitives and the compression function -/

theorem witness_PrimitivesBitByBit : 0 < 32 ∧ 31 < 32 := by decide

theorem witness_WordsAndUnwordsAreInverse : ([1, 2, 3, 4, 5, 6, 7, 8] : List Byte).length % 4 = 0 := by decide

theorem witness_IncrementalRoundConstant :
    loading.estate = .load ∧ isNext (microStep loading) (fun _ => true) = true ∧
    (inRound 15).estate = .round ∧ isNext (microStep (inRound 15)) (fun t => t.tj == 0x9d8a7a87) = true ∧
    (inRound 15).Inv ∧ (inRound 63).Inv ∧
    ∃ tj : Nat → Word, tj 0 = 0x79cc4519 ∧
      ∀ n, n < 63 → tj (n + 1) = if n = 15 then 0x9d8a7a87 else rotl32 (tj n) 1 :=
  ⟨by decide, by decide, by decide, by decide, inv_inRound_15, inv_inRound_63,
    fun n => Nat.rec 0x79cc4519 (fun n x => if n = 15 then 0x9d8a7a87 else rotl32 x 1) n, rfl, fun _ _ => rfl⟩

/-! ### The engine -/

theorem witness_LoadStepFillsTheEngine :
    (loading.Inv ∧ loading.estate = .load ∧ loading.jq = blockA :: []) ∧
    (twoBlocks.estate = .load ∧ twoBlocks.jq = blockA :: [blockA]) ∧
    (State.estate { loading with jq := [] } = .load ∧ State.jq { loading with jq := [] } = []) :=
  ⟨⟨inv_loading, by decide, by decide⟩, by decide, by decide⟩

theorem witness_RoundStepComputesOneRound :
    (inRound 0).estate = .round ∧ (inRound 15).estate = .round ∧ (inRound 16).estate = .round ∧
    (inRound 63).estate = .round := by decide

theorem witness_FeedStepUpdatesTheChainingState :
    (isNext (microStep (inRound 63)) (fun _ => true) = true ∧ (inRound 63).estate ≠ .feed) ∧
    (feeding.estate = .feed ∧ feeding.jq = blockA :: []) ∧
    (State.estate { feeding with jq := [blockA, blockA] } = .feed ∧
      State.jq { feeding with jq := [blockA, blockA] } = blockA :: [blockA]) := by decide

theorem witness_EngineTurnLeavesTheContextAlone :
    isNext (engineTurn 1 loading) (fun _ => true) = true ∧ isNext (engineTurn 2 feeding) (fun _ => true) = true ∧
    finalized.busy = false ∧ isNext (engineTurn 3 finalized) (fun _ => true) = true := by decide

theorem witness_JobComputesTheCompressions :
    (loading.Inv ∧ loading.microStepsLeft ≤ 66) ∧ (twoBlocks.Inv ∧ twoBlocks.microStepsLeft ≤ 132) ∧
    isNext (engineTurn 1 twoBlocks) (fun _ => true) = true ∧
    ((inRound 63).Inv ∧ (inRound 63).microStepsLeft ≤ 2) ∧ (feeding.Inv ∧ feeding.microStepsLeft ≤ 1) ∧
    (finalized.Inv ∧ finalized.microStepsLeft ≤ 0) :=
  ⟨⟨inv_loading, by decide⟩, ⟨inv_twoBlocks, by decide⟩, by decide, ⟨inv_inRound_63, by decide⟩, ⟨inv_feeding, by decide⟩,
    inv_finalized, by decide⟩

theorem witness_EveryJobEnds : (twoBlocks.Inv ∧ twoBlocks.script = []) ∧ ((inRound 15).Inv ∧ (inRound 15).script = []) :=
  ⟨⟨inv_twoBlocks, rfl⟩, inv_inRound_15, rfl⟩

theorem witness_HostOperationCommutesWithTheEngine :
    (loading.busy = true ∧ isNext (microStep loading) (fun t => t.busy) = true) ∧
    ((inRound 63).busy = true ∧ isNext (microStep (inRound 63)) (fun t => t.busy) = true) ∧
    isNext (microStep { feeding with jq := [blockA, blockA] }) (fun t => t.busy) = true := by decide

theorem witness_NoHostOperationObservesTheEngine :
    loading.busy = true ∧ (inRound 15).busy = true ∧
    inRound 15 = { loading with v := (inRound 15).v, jq := (inRound 15).jq, estate := (inRound 15).estate,
                                j := (inRound 15).j, regs := (inRound 15).regs, tj := (inRound 15).tj,
                                w := (inRound 15).w, wp := (inRound 15).wp } ∧
    isNext (exec (.rdDigest 0) loading) (fun _ => true) = true ∧
    isNext (exec (.rdDigest 0) (inRound 15)) (fun _ => true) = true :=
  ⟨by decide, by decide, rfl, by decide, by decide⟩

/-! ### Rules about the whole machine -/

theorem witness_OnlyFeedChangesTheChainingState :
    isNext (exec .wrCmdInit State.reset) (fun t => t.v != State.reset.v) = true ∧
    isNext (exec .wrCmdForgeInit (active 0)) (fun t => t.v != (active 0).v) = true ∧
    isNext (microStep { feeding with regs := workingOf iv }) (fun t => t.v != feeding.v) = true := by decide

theorem witness_PhaseTransitions :
    (State.busy { finalized with flen := 0x1fffffffffffffb7 } = false ∧
      (State.flen { finalized with flen := 0x1fffffffffffffb7 }).toNat ≤ 0x1fffffffffffffb7) ∧
    ((active 63).busy = false ∧ (active 63).phase = .active) ∧
    isNext (exec .wrCmdInit finalized) (fun t => t.phase != finalized.phase) = true ∧
    isNext (exec .wrCmdForgeInit State.reset) (fun t => t.phase != State.reset.phase) = true ∧
    isNext (exec .wrCmdFinalize (active 3)) (fun t => t.phase != (active 3).phase) = true ∧
    isNext (engineTurn 2 feeding) (fun _ => true) = true := by decide

theorem witness_HostOperationFrame :
    isNext (exec (.wrFdig 7 1) (active 3)) (fun t => t.fdig != (active 3).fdig) = true ∧
    isNext (exec (.wrFlenHi 1) (active 3)) (fun t => t.flen != (active 3).flen) = true ∧
    isNext (exec .wrCmdForgeInit (active 3)) (fun t => t.padLen != (active 3).padLen) = true ∧
    isNext (exec (.wrDinByte 0) (active 3)) (fun t => t.buf != (active 3).buf) = true ∧
    isNext (exec (.wrDinWord 0) (active 60)) (fun t => t.jq != (active 60).jq) = true := by decide

/-! ### Hashing and forgery -/

/-- A context with 63 bytes 0x61 taken in, none compressed. -/
theorem holds_active_63 : (active 63).HoldsMessage iv 0 (List.replicate 63 0x61) := by
  unfold State.HoldsMessage; decide

theorem holds_active_60 : (active 60).HoldsMessage iv 0 (List.replicate 60 0x61) := by
  unfold State.HoldsMessage; decide

theorem holds_active_55 : (active 55).HoldsMessage iv 0 (List.replicate 55 0x61) := by
  unfold State.HoldsMessage; decide

theorem holds_active_56 : (active 56).HoldsMessage iv 0 (List.replicate 56 0x61) := by
  unfold State.HoldsMessage; decide

theorem holds_atLimit_62 : (atLimit 62).HoldsMessage iv (2 ^ 61 - 64) (List.replicate 62 0x61) := by
  unfold State.HoldsMessage; decide

theorem holds_atLimit_63 : (atLimit 63).HoldsMessage iv (2 ^ 61 - 64) (List.replicate 63 0x61) := by
  unfold State.HoldsMessage; decide

/-- One block of the message is queued, and its compression has begun. -/
theorem holds_inRound_15 : (inRound 15).HoldsMessage iv 0 (List.replicate 64 0x61) := by
  refine ⟨rfl, ?_, by decide, by decide, by decide⟩
  have h : fullBlocks (List.replicate 64 0x61) = [blockA] := by decide
  rw [h]
  rfl

/-- The clauses that keep the message: an operation of another family, a busy one, the two overflows, a forgery
beyond its limit, and a step. -/
theorem witness_DataWritesExtendTheMessage_kept :
    isNext (exec .wrCmdClearErr (active 63)) (fun _ => true) = true ∧
    (∀ d, Instr.wrCmdClearErr ≠ .wrDinByte d ∧ Instr.wrCmdClearErr ≠ .wrDinWord d) ∧
    ((inRound 15).busy = true ∧ isNext (exec .wrCmdInit (inRound 15)) (fun _ => true) = true) ∧
    ((atLimit 63).Inv ∧ (atLimit 63).HoldsMessage iv (2 ^ 61 - 64) (List.replicate 63 0x61) ∧
      2 ^ 64 - 1 < (atLimit 63).totalbits.toNat + 8 * ((atLimit 63).bufcnt.toNat + 1) ∧
      isNext (exec (.wrDinByte 1) (atLimit 63)) (fun _ => true) = true) ∧
    (2 ^ 64 - 1 < (atLimit 62).totalbits.toNat + 8 * ((atLimit 62).bufcnt.toNat + 4) ∧
      isNext (exec (.wrDinWord 1) (atLimit 62)) (fun _ => true) = true) ∧
    (State.Inv { atLimit 62 with flen := 0x1fffffffffffffb8 } ∧
      State.HoldsMessage { atLimit 62 with flen := 0x1fffffffffffffb8 } iv (2 ^ 61 - 64) (List.replicate 62 0x61) ∧
      isNext (exec .wrCmdForgeInit { atLimit 62 with flen := 0x1fffffffffffffb8 }) (fun _ => true) = true) ∧
    isNext (step (inRound 15)) (fun _ => true) = true :=
  ⟨by decide, fun _ => ⟨nofun, nofun⟩, by decide, ⟨inv_atLimit_63, holds_atLimit_63, by decide, by decide⟩,
    by decide, ⟨inv_atLimit_62, holds_atLimit_62, by decide⟩, by decide⟩

theorem witness_DataWritesExtendTheMessage :
    ((active 63).Inv ∧ (active 63).HoldsMessage iv 0 (List.replicate 63 0x61) ∧ (active 63).busy = false ∧
      (active 63).totalbits.toNat + 8 * ((active 63).bufcnt.toNat + 1) ≤ 2 ^ 64 - 1) ∧
    ((active 60).Inv ∧ (active 60).HoldsMessage iv 0 (List.replicate 60 0x61) ∧ (active 60).busy = false ∧
      (active 60).totalbits.toNat + 8 * ((active 60).bufcnt.toNat + 4) ≤ 2 ^ 64 - 1) ∧
    ((atLimit 62).Inv ∧ (atLimit 62).HoldsMessage iv (2 ^ 61 - 64) (List.replicate 62 0x61) ∧
      (atLimit 62).busy = false ∧ (atLimit 62).totalbits.toNat + 8 * ((atLimit 62).bufcnt.toNat + 1) ≤ 2 ^ 64 - 1) ∧
    ((inRound 15).Inv ∧ (inRound 15).HoldsMessage iv 0 (List.replicate 64 0x61) ∧
      isNext (engineTurn 1 (inRound 15)) (fun _ => true) = true) :=
  ⟨⟨inv_active_63, holds_active_63, by decide, by decide⟩, ⟨inv_active_60, holds_active_60, by decide, by decide⟩,
    ⟨inv_atLimit_62, holds_atLimit_62, by decide, by decide⟩, inv_inRound_15, holds_inRound_15, by decide⟩

theorem inv_finalized_flen (x : BitVec 64) : State.Inv { finalized with flen := x } := inv_finalized

theorem witness_NewContextHoldsTheEmptyMessage :
    (finalized.Inv ∧ finalized.busy = false) ∧
    (State.Inv { finalized with flen := 0x1fffffffffffffb7 } ∧
      State.busy { finalized with flen := 0x1fffffffffffffb7 } = false ∧
      (State.flen { finalized with flen := 0x1fffffffffffffb7 }).toNat ≤ 0x1fffffffffffffb7) :=
  ⟨⟨inv_finalized, by decide⟩, inv_finalized_flen _, by decide, by decide⟩

theorem witness_FinalizeGivesTheHashOfTheMessage :
    ((active 55).Inv ∧ (active 55).busy = false ∧ (active 55).HoldsMessage iv 0 (List.replicate 55 0x61) ∧
      isNext (exec .wrCmdFinalize (active 55)) (fun t => t.microStepsLeft == 66) = true) ∧
    ((active 56).Inv ∧ (active 56).busy = false ∧ (active 56).HoldsMessage iv 0 (List.replicate 56 0x61) ∧
      isNext (exec .wrCmdFinalize (active 56)) (fun t => t.microStepsLeft == 132) = true) :=
  ⟨⟨inv_active_55, by decide, holds_active_55, by decide⟩, inv_active_56, by decide, holds_active_56, by decide⟩

/-- A context that goes on from the chaining value `v` after one block, three bytes 0x61 buffered. -/
def continued (v : Chain) : State := { active 3 with v := v, totalbits := 512 }

theorem continued_eventual (v : Chain) : (continued v).eventual = v := rfl

theorem inv_continued_iv : (continued iv).Inv :=
  ⟨by unfold State.QueueInv; decide, by unfold State.ContextInv; decide, by unfold State.PadInv; decide,
    engineInv_of_noJob rfl⟩

/-- Nothing in the invariant looks at `V` of a context that is `ACTIVE` and has no job. -/
theorem inv_continued (v : Chain) : (continued v).Inv :=
  have h := inv_continued_iv
  ⟨h.1, ⟨h.2.1.1, h.2.1.2.1, h.2.1.2.2.1, h.2.1.2.2.2.1, h.2.1.2.2.2.2.1, h.2.1.2.2.2.2.2.1, fun hp => by cases hp⟩,
    h.2.2.1, engineInv_of_noJob rfl⟩

theorem continued_buffered (v : Chain) : (continued v).buffered = [0x61, 0x61, 0x61] := by
  have h : (continued iv).buffered = [0x61, 0x61, 0x61] := by decide
  exact h

theorem inv_finalized_inputs (f : Chain) (x : BitVec 64) : State.Inv { finalized with fdig := f, flen := x } :=
  inv_finalized

/-- The forged context holds the suffix. -/
theorem holds_forged (v : Chain) : (continued v).HoldsMessage v 64 [0x61, 0x61, 0x61] := by
  have h : fullBlocks [0x61, 0x61, 0x61] = [] := by decide
  refine ⟨rfl, ?_, continued_buffered v, rfl, rfl⟩
  rw [continued_eventual, h]
  rfl

/-- The genuine context holds the message, its padding and the suffix. -/
theorem holds_genuine (m : List Byte) (hl : m.length = 67) (hd : m.drop 64 = [0x61, 0x61, 0x61]) :
    (continued ((fullBlocks m).foldl compress iv)).HoldsMessage iv 0 m := by
  refine ⟨rfl, continued_eventual _, ?_, ?_, ?_⟩
  · rw [hl]; exact (continued_buffered _).trans hd.symm
  · rw [hl]; rfl
  · rw [hl]; rfl

theorem witness_ForgedDigestIsGenuine :
    (∃ s : State, s.Inv ∧ s.busy = false ∧ s.fdig = hashWords [0x61] ∧ s.flen.toNat = 1) ∧
    (∃ s d : State, s.Inv ∧ s.busy = false ∧ s.HoldsMessage (hashWords [0x61]) (paddedBits 1 / 8) [0x61, 0x61, 0x61] ∧
      d.Inv ∧ d.busy = false ∧ d.HoldsMessage iv 0 ([0x61] ++ padBytes 1 ++ [0x61, 0x61, 0x61])) :=
  ⟨⟨_, inv_finalized_inputs (hashWords [0x61]) 1, rfl, rfl, rfl⟩,
    ⟨_, _, inv_continued _, rfl, holds_forged _, inv_continued _, rfl, holds_genuine _ (by decide) (by decide)⟩⟩

/-! ### Instances -/

theorem witness_InstancesDoNotInterfere :
    (0 : Nat) ≠ 1 ∧
    (match Platform.stepAt ⟨[loading, feeding]⟩ 0 with | some (.next _) => true | _ => false) = true ∧
    (match Platform.stepAt ⟨[loading, feeding]⟩ 1 with | some (.next _) => true | _ => false) = true := by decide

theorem witness_AccessReachesOneInstance : (1 : Nat) ≠ 0 := by decide

end Sys2Proof.Tests
end

section
/-! The bus word as a number, and what the register window of one core answers (00_scope.md R12,
30_encoding.md R90, 20_memory.md R60). -/

namespace Sys2Proof

theorem busWord_toNat (dir : Dir) (off : BitVec 8) (data : Word) :
    (busWord dir off data).toNat = dir.bit.toNat * 2 ^ 40 + off.toNat * 2 ^ 32 + data.toNat := by
  unfold busWord
  rw [BitVec.toNat_append, BitVec.toNat_append, ← Nat.shiftLeft_add_eq_or_of_lt data.isLt,
    ← Nat.shiftLeft_add_eq_or_of_lt off.isLt, Nat.shiftLeft_eq, Nat.shiftLeft_eq]
  omega

namespace Machine

theorem inWindow_eq_true_iff (k addr : Nat) :
    inWindow k addr = true ↔ Config.base k ≤ addr ∧ addr < Config.base k + 256 := by
  unfold inWindow
  rw [Bool.and_eq_true, decide_eq_true_eq, decide_eq_true_eq, windowBytes]

theorem inWindow_base_add (k : Nat) (off : BitVec 8) : inWindow k (Config.base k + off.toNat) = true :=
  (inWindow_eq_true_iff _ _).2 ⟨Nat.le_add_right _ _, Nat.add_lt_add_left off.isLt _⟩

theorem inWindow_of_outside {k addr : Nat} (h : addr < Config.base k ∨ Config.base k + 256 ≤ addr) :
    inWindow k addr = false := by
  rw [← Bool.not_eq_true, inWindow_eq_true_iff]
  omega

/-- An access at `BASE + off` keeps its direction, width and data, and its offset is `off`. -/
theorem windowAccess_base_add (k : Nat) (dir : Dir) (off : BitVec 8) (bytes : Nat) (data : Word) :
    windowAccess k dir (Config.base k + off.toNat) bytes data = some ⟨bytes, busWord dir off data⟩ := by
  unfold windowAccess
  rw [if_pos (inWindow_base_add k off), Nat.add_sub_cancel_left, BitVec.ofNat_toNat, BitVec.setWidth_eq]

theorem windowAccess_of_not_inWindow {k addr : Nat} (h : inWindow k addr = false) (dir : Dir) (bytes : Nat)
    (data : Word) : windowAccess k dir addr bytes data = none := by
  unfold windowAccess
  rw [h]
  rfl

end Machine

end Sys2Proof
end

section
/-! The step on a turn of the host (00_scope.md R13, 20_memory.md R73, 30_encoding.md R92). -/

namespace Sys2Proof.Machine

/-- In a consistent state a host turn is decoded and run at the state whose script has lost it. -/
theorem step_of_host {s : State} {a : BusAccess} {rest : List Turn} (hc : s.inconsistency = none)
    (hs : s.script = .host a :: rest) : step s = hostTurn a { s with script := rest } := by
  unfold step nextTurn
  rw [hs]
  exact ifConsistent_of_none (by rwa [inconsistency_script]) _

theorem hostTurn_of_decode {a : BusAccess} {i : Instr} (h : decodeAccess a.bytes a.word = .ok i) (s : State) :
    hostTurn a s = exec i s := by
  unfold hostTurn
  rw [h]

/-- The access placed for a table word decodes to the operation the table word stands for. -/
theorem decodeAccess_tableAccess {nbits w : Nat} {i : Instr} (h : decodeTableWord nbits w = some i) :
    decodeAccess (tableAccess w).bytes (tableAccess w).word = .ok i := by
  unfold decodeTableWord at h
  unfold tableAccess
  cases hd : decodeAccess (tableWordWidth w) (BitVec.ofNat 41 w) with
  | ok k => rw [hd] at h; rw [Option.some.inj h]
  | error e => rw [hd] at h; cases h

end Sys2Proof.Machine
end

section
/-! The statements of the scope family (00_scope.md R12, R13). -/

namespace Sys2Proof.Proofs

open Sys2Proof Sys2Proof.Machine

/-- Settles O5: an access inside the window is its bus word, whose value is `busWord_toNat`; an address
outside the window is answered by nothing. -/
theorem busAddressReachesItsOffset : Obligations.BusAddressReachesItsOffset := by
  intro k off v
  refine ⟨⟨busWord .wr off v, windowAccess_base_add .., ?_⟩,
    ⟨busWord .rd off 0, windowAccess_base_add .., ?_⟩, fun addr bytes h => ?_⟩
  · simp [busWord_toNat, Dir.bit]
  · simp [busWord_toNat, Dir.bit]
  · have hout : inWindow k addr = false := inWindow_of_outside h
    exact ⟨hout, windowAccess_of_not_inWindow hout .., windowAccess_of_not_inWindow hout ..⟩

/-- Settles O7: both clauses are a host turn whose access decodes; a word placed by `withFetchWord` is such
a turn in front of the state's own script. -/
theorem stepRunsTheDecodedOperation : Obligations.StepRunsTheDecodedOperation := by
  refine ⟨fun s a rest i hc hs hd => ?_, fun s nbits w i hc hd => ?_⟩
  · rw [step_of_host hc hs, hostTurn_of_decode hd]
  · have hplaced : step (s.withFetchWord nbits w) = hostTurn (tableAccess w) s := step_of_host hc rfl
    rw [hplaced, hostTurn_of_decode (decodeAccess_tableAccess hd)]

end Sys2Proof.Proofs
end

section
/-! What a host operation can do, said once (45_control.md R240 to R247, 43_stream_padding.md R180 to R188,
44_digest_forgery.md R215 to R220): the effects of all operations, and their meaning while busy. -/

namespace Sys2Proof.Machine

/-- The codes an operation can raise: `INVALID_STATE`, `LENGTH_OVERFLOW`, `BUSY` and `BAD_COMMAND`
(60_exceptions.md R261). -/
def ErrCode.Raisable (e : ErrCode) : Prop :=
  e = .invalidState ∨ e = .lengthOverflow ∨ e = .busy ∨ e = .badCommand

theorem firstFailing_mem {checks : List (Bool × ErrCode)} {e : ErrCode} (h : firstFailing checks = some e) :
    (true, e) ∈ checks := by
  induction checks with
  | nil => cases h
  | cons c rest ih =>
    obtain ⟨failed, e'⟩ := c
    cases failed with
    | false => exact List.mem_cons_of_mem _ (ih h)
    | true =>
      obtain rfl : e' = e := Option.some.inj h
      exact List.mem_cons_self

theorem firstFailing_cons_eq_none_iff (failed : Bool) (e : ErrCode) (rest : List (Bool × ErrCode)) :
    firstFailing ((failed, e) :: rest) = none ↔ failed = false ∧ firstFailing rest = none := by
  cases failed <;> simp

/-- The checks of a data write pass exactly when the core is idle, the context active and the length fits
(43_stream_padding.md R184, R185). -/
theorem dataChecks_pass_iff (s : State) (n : Nat) :
    firstFailing (s.dataChecks n) = none ↔ s.estate = .idle ∧ s.phase = .active ∧ s.lengthFits n = true := by
  simp [State.dataChecks, firstFailing_cons_eq_none_iff]

theorem lengthFits_iff (s : State) (n : Nat) :
    s.lengthFits n = true ↔ s.totalbits.toNat + 8 * (s.bufcnt.toNat + n) ≤ 2 ^ 64 - 1 := by
  simp [State.lengthFits]

theorem forgeryFits_iff (s : State) :
    s.forgeryFits = true ↔ paddedBits s.flen.toNat ≤ 2 ^ 64 - 512 := by
  simp [State.forgeryFits]

/-- The operation is a data write of the bytes `bs` (43_stream_padding.md R184, R185). -/
def Instr.Streams (i : Instr) (bs : List Byte) : Prop :=
  ∃ d : Word, (i = .wrDinByte d ∧ bs = [dataByte d]) ∨ (i = .wrDinWord d ∧ bs = dataBytes d)

theorem Instr.Streams.is_data_write {i : Instr} {bs : List Byte} (h : Instr.Streams i bs) :
    ∃ d, i = .wrDinByte d ∨ i = .wrDinWord d := by
  obtain ⟨d, hd⟩ := h
  exact ⟨d, hd.imp And.left And.left⟩

theorem Instr.Streams.length_le {i : Instr} {bs : List Byte} (h : Instr.Streams i bs) : bs.length ≤ 4 := by
  obtain ⟨d, ⟨-, rfl⟩ | ⟨-, rfl⟩⟩ := h <;> simp [dataBytes, bytes32]

/-- `HostEffect s i t`: from `s` the operation `i` may end in `t`. A write records an error, is ignored, or has
the effect of its own, guarded by its checks; a read answers with a value, free while busy. -/
inductive HostEffect (s : State) : Instr → State → Prop
  | rejected {i : Instr} {e : ErrCode} (hdir : i.dir = .wr) (he : e.Raisable) : HostEffect s i (s.raiseError e)
  | ignored {i : Instr} (hdir : i.dir = .wr) : HostEffect s i s
  | answered {i : Instr} {x : Word} (hdir : i.dir = .rd) : HostEffect s i (s.answer x)
  | answeredFree {i : Instr} (hdir : i.dir = .rd) : HostEffect s i s.answerFree
  | errorCleared : HostEffect s .wrCmdClearErr s.clearError
  | started (hidle : s.estate = .idle) : HostEffect s .wrCmdInit (s.startContext iv 0)
  | finalized (hidle : s.estate = .idle) (hactive : s.phase = .active) :
      HostEffect s .wrCmdFinalize s.queueFinal
  | forged (hidle : s.estate = .idle) (hfits : s.forgeryFits = true) :
      HostEffect s .wrCmdForgeInit s.forgeContext
  | absorbed {i : Instr} {bs : List Byte} (hi : Instr.Streams i bs) (hidle : s.estate = .idle)
      (hactive : s.phase = .active) (hfits : s.lengthFits bs.length = true) : HostEffect s i (s.absorbAll bs)
  | wroteFlenLo {d : Word} (hidle : s.estate = .idle) :
      HostEffect s (.wrFlenLo d) (s.writeFlen (withLowHalf s.flen d))
  | wroteFlenHi {d : Word} (hidle : s.estate = .idle) :
      HostEffect s (.wrFlenHi d) (s.writeFlen (withHighHalf s.flen d))
  | wroteFdig {k : BitVec 3} {d : Word} (hidle : s.estate = .idle) : HostEffect s (.wrFdig k d) (s.writeFdig k d)

/-- A checked write whose effect is one of the operation's is one of the operation's effects. -/
theorem HostEffect.of_checkedWrite {i : Instr} {s t : State} {checks : List (Bool × ErrCode)}
    {effect : State → State} (h : s.checkedWrite checks effect = .next t) (hdir : i.dir = .wr)
    (hcodes : ∀ c ∈ checks, c.2.Raisable) (hpass : firstFailing checks = none → HostEffect s i (effect s)) :
    HostEffect s i t := by
  rcases checkedWrite_cases s checks effect with ⟨e, hfail, hw⟩ | ⟨hok, hw⟩
  · obtain rfl : s.raiseError e = t := Host.Outcome.next.inj (hw.symm.trans h)
    exact .rejected hdir (hcodes _ (firstFailing_mem hfail))
  · obtain rfl : effect s = t := Host.Outcome.next.inj (hw.symm.trans h)
    exact hpass hok

theorem HostEffect.of_hostRead {i : Instr} {s t : State} {x : Word} (h : s.hostRead x = .next t)
    (hdir : i.dir = .rd) : HostEffect s i t := by
  rcases hostRead_cases s x with ⟨-, hr⟩ | ⟨-, hr⟩ <;> obtain rfl := Host.Outcome.next.inj (hr.symm.trans h)
  · exact .answeredFree hdir
  · exact .answered hdir

theorem HostEffect.of_same {i : Instr} {s t : State} (h : (.next s : Result) = .next t) (hdir : i.dir = .wr) :
    HostEffect s i t := by
  obtain rfl : s = t := Host.Outcome.next.inj h
  exact .ignored hdir

theorem HostEffect.of_reservedAccess {i : Instr} {s t : State} {dir : Dir} {d : Word}
    (h : s.reservedAccess dir d = .next t) (hdir : i.dir = dir) : HostEffect s i t := by
  cases dir with
  | rd => exact .of_hostRead h hdir
  | wr => exact .of_same h hdir

theorem HostEffect.of_dataWrite {i : Instr} {s t : State} {bs : List Byte} (hi : Instr.Streams i bs)
    (hdir : i.dir = .wr) (h : s.checkedWrite (s.dataChecks bs.length) (State.absorbAll bs) = .next t) :
    HostEffect s i t := by
  refine .of_checkedWrite h hdir (by simp [State.dataChecks, ErrCode.Raisable]) fun hok => ?_
  obtain ⟨hidle, hactive, hfits⟩ := (dataChecks_pass_iff s bs.length).1 hok
  exact .absorbed hi hidle hactive hfits

/-- Every operation that answers a next state has one of its effects. -/
theorem hostEffect_of_exec {i : Instr} {s t : State} (h : exec i s = .next t) : HostEffect s i t := by
  cases i with
  | wrCmdInit =>
    exact .of_checkedWrite h rfl (by simp [ErrCode.Raisable]) fun hok =>
      .started (by simpa [firstFailing_cons_eq_none_iff] using hok)
  | wrCmdFinalize =>
    refine .of_checkedWrite h rfl (by simp [ErrCode.Raisable]) fun hok => ?_
    obtain ⟨hidle, hactive⟩ : s.estate = .idle ∧ s.phase = .active := by
      simpa [firstFailing_cons_eq_none_iff] using hok
    exact .finalized hidle hactive
  | wrCmdForgeInit =>
    refine .of_checkedWrite h rfl (by simp [ErrCode.Raisable]) fun hok => ?_
    obtain ⟨hidle, hfits⟩ : s.estate = .idle ∧ s.forgeryFits = true := by
      simpa [firstFailing_cons_eq_none_iff] using hok
    exact .forged hidle hfits
  | wrCmdClearErr =>
    obtain rfl : s.clearError = t := Host.Outcome.next.inj h
    exact .errorCleared
  | wrCmdReserved d =>
    refine .of_checkedWrite h rfl (by simp [ErrCode.Raisable]) fun hok => ?_
    simp [firstFailing_cons_eq_none_iff] at hok
  | wrDinByte d => exact .of_dataWrite ⟨d, .inl ⟨rfl, rfl⟩⟩ rfl h
  | wrDinWord d => exact .of_dataWrite ⟨d, .inr ⟨rfl, rfl⟩⟩ rfl h
  | wrFlenLo d =>
    exact .of_checkedWrite h rfl (by simp [ErrCode.Raisable]) fun hok =>
      .wroteFlenLo (by simpa [firstFailing_cons_eq_none_iff] using hok)
  | wrFlenHi d =>
    exact .of_checkedWrite h rfl (by simp [ErrCode.Raisable]) fun hok =>
      .wroteFlenHi (by simpa [firstFailing_cons_eq_none_iff] using hok)
  | wrFdig k d =>
    exact .of_checkedWrite h rfl (by simp [ErrCode.Raisable]) fun hok =>
      .wroteFdig (by simpa [firstFailing_cons_eq_none_iff] using hok)
  | rdStatus =>
    obtain rfl : s.answer s.statusWord = t := Host.Outcome.next.inj h
    exact .answered rfl
  | rdTotalbitsLo | rdTotalbitsHi | rdFlenLo | rdFlenHi | rdDigest | rdFdig | rdPadLen | rdPad | rdCmd
  | rdDinByte | rdDinWord => exact .of_hostRead h rfl
  | wrStatus | wrTotalbitsLo | wrTotalbitsHi | wrDigest | wrPadLen | wrPad => exact .of_same h rfl
  | rsvd64 | rsvd68 | rsvd70 => exact .of_reservedAccess h rfl

theorem checkedWrite_of_busy {s : State} (h : s.busy = true) (checks : List (Bool × ErrCode))
    (effect : State → State) :
    s.checkedWrite ((s.busy, .busy) :: checks) effect = .next (s.raiseError .busy) :=
  checkedWrite_of_fail (by rw [h]; rfl)

/-- What an operation is while `BUSY = 1` (45_control.md R241, R243, R245 to R247). It depends on the operation
alone, which is why busy states cannot be told apart by running one. -/
inductive BusyMeaning (i : Instr) : Prop
  | rejected (h : ∀ s : State, s.busy = true → exec i s = .next (s.raiseError .busy))
  | ignored (h : ∀ s : State, s.busy = true → exec i s = .next s)
  | errorCleared (h : ∀ s : State, s.busy = true → exec i s = .next s.clearError)
  | answeredStatus (h : ∀ s : State, s.busy = true → exec i s = .next (s.answer s.statusWord))
  | answeredFree (h : ∀ s : State, s.busy = true → exec i s = .next s.answerFree)

theorem busyMeaning_of_reserved {i : Instr} {dir : Dir} {d : Word} (h : ∀ s, exec i s = s.reservedAccess dir d) :
    BusyMeaning i := by
  cases dir with
  | rd => exact .answeredFree fun s hs => (h s).trans (hostRead_of_busy hs 0)
  | wr => exact .ignored fun s _ => h s

theorem busyMeaning (i : Instr) : BusyMeaning i := by
  cases i with
  | wrCmdInit | wrCmdFinalize | wrCmdForgeInit | wrCmdReserved | wrDinByte | wrDinWord | wrFlenLo | wrFlenHi
  | wrFdig => exact .rejected fun s hs => checkedWrite_of_busy hs _ _
  | wrCmdClearErr => exact .errorCleared fun _ _ => rfl
  | rdStatus => exact .answeredStatus fun _ _ => rfl
  | rdTotalbitsLo | rdTotalbitsHi | rdFlenLo | rdFlenHi | rdDigest | rdFdig | rdPadLen | rdPad | rdCmd
  | rdDinByte | rdDinWord => exact .answeredFree fun s hs => hostRead_of_busy hs _
  | wrStatus | wrTotalbitsLo | wrTotalbitsHi | wrDigest | wrPadLen | wrPad => exact .ignored fun _ _ => rfl
  | rsvd64 | rsvd68 | rsvd70 => exact busyMeaning_of_reserved fun _ => rfl

end Sys2Proof.Machine
end

section
/-! What the shared operations leave unchanged: absorbing bytes, a forged context, and the engine's micro-steps. -/

namespace Sys2Proof.Machine

@[simp] theorem absorbAll_v (s : State) (bs : List Byte) : (s.absorbAll bs).v = s.v := by
  obtain ⟨hv, -⟩ := absorbAll_frame bs s
  exact hv

@[simp] theorem absorbAll_phase (s : State) (bs : List Byte) : (s.absorbAll bs).phase = s.phase := by
  obtain ⟨-, hphase, -⟩ := absorbAll_frame bs s
  exact hphase

/-- A micro-step that changes `V` is FEED (10_state.md R22). -/
theorem microStep_v {s t : State} (h : microStep s = .next t) (he : s.estate ≠ .feed) : t.v = s.v := by
  obtain ⟨-, rfl⟩ | ⟨blk, rest, -, -, rfl⟩ | ⟨-, rfl⟩ | ⟨blk, rest, hfeed, -, -⟩ := microStep_cases h
  · rfl
  · rfl
  · rfl
  · exact absurd hfeed he

theorem microStep_phase {s t : State} (h : microStep s = .next t) : t.phase = s.phase := by
  obtain ⟨-, rfl⟩ | ⟨blk, rest, -, -, rfl⟩ | ⟨-, rfl⟩ | ⟨blk, rest, -, -, rfl⟩ := microStep_cases h <;> rfl

theorem engineTurn_phase {n : Nat} {s t : State} (h : engineTurn n s = .next t) : t.phase = s.phase :=
  engineTurn_induction (P := fun u => u.phase = s.phase)
    (fun _ _ hu hm => (microStep_phase hm).trans hu) n s t rfl h

/-- `STATUS` holds `PHASE` in bits 2:1 (30_encoding.md R98). -/
theorem statusWord_phase (s : State) : s.statusWord.extractLsb' 1 2 = s.phase.code := by
  unfold State.statusWord
  apply BitVec.eq_of_getLsbD_eq
  intro k hk
  simp only [BitVec.getLsbD_extractLsb', BitVec.getLsbD_append, hk, decide_true, Bool.true_and]
  rw [if_neg (by omega), if_pos (by omega), Nat.add_sub_cancel_left]

/-- `s` with the chaining state and the engine of `e` (10_state.md R37). -/
def State.withEngine (s e : State) : State :=
  { s with v := e.v, jq := e.jq, estate := e.estate, j := e.j, regs := e.regs, tj := e.tj, w := e.w, wp := e.wp }

theorem statusWord_withEngine {s e : State} (h : e.busy = s.busy) :
    (s.withEngine e).statusWord = s.statusWord := by
  have hbusy : (s.withEngine e).busy = s.busy := h
  unfold State.statusWord
  rw [hbusy]
  rfl

theorem raiseError_withEngine (s e : State) (c : ErrCode) :
    (s.withEngine e).raiseError c = (s.raiseError c).withEngine e := by
  rw [raiseError_eq, raiseError_eq]
  rfl

/-- While busy, an operation does not read the chaining state and the engine, and leaves the core busy
(10_state.md R39). That a free value is the same is the model's (log entry 4). -/
theorem exec_withEngine_of_busy {i : Instr} {s e t : State} (hs : s.busy = true) (he : e.busy = true)
    (h : exec i s = .next t) : t.busy = true ∧ exec i (s.withEngine e) = .next (t.withEngine e) := by
  have hse : (s.withEngine e).busy = true := he
  cases busyMeaning i with
  | rejected hi =>
    obtain rfl := Host.Outcome.next.inj ((hi s hs).symm.trans h)
    exact ⟨by simpa using hs, by rw [hi _ hse, raiseError_withEngine]⟩
  | ignored hi =>
    obtain rfl := Host.Outcome.next.inj ((hi s hs).symm.trans h)
    exact ⟨hs, hi _ hse⟩
  | errorCleared hi =>
    obtain rfl := Host.Outcome.next.inj ((hi s hs).symm.trans h)
    exact ⟨hs, hi _ hse⟩
  | answeredStatus hi =>
    obtain rfl := Host.Outcome.next.inj ((hi s hs).symm.trans h)
    exact ⟨hs, by rw [hi _ hse, statusWord_withEngine (he.trans hs.symm)]; rfl⟩
  | answeredFree hi =>
    obtain rfl := Host.Outcome.next.inj ((hi s hs).symm.trans h)
    exact ⟨hs, hi _ hse⟩

end Sys2Proof.Machine
end

section
/-! The statements of the state family that are settled from the effects of one operation (10_state.md R22, R30,
R39, R40). -/

namespace Sys2Proof.Proofs

open Sys2Proof Sys2Proof.Machine

/-- Settles O52: of the effects of a host operation only starting a context writes `V`, of the micro-steps only
FEED. -/
theorem onlyFeedChangesTheChainingState : Obligations.OnlyFeedChangesTheChainingState := by
  refine ⟨fun i s t h hv => ?_, fun s t h hv => by_contra fun he => hv (microStep_v h he)⟩
  cases hostEffect_of_exec h with
  | started => exact .inl rfl
  | forged => exact .inr rfl
  | rejected | ignored | answered | answeredFree | errorCleared | finalized | absorbed | wroteFlenLo
  | wroteFlenHi | wroteFdig => simp at hv

/-- Settles O53: accepted commands write `PHASE`, no other effect of a host operation and no micro-step does. -/
theorem phaseTransitions : Obligations.PhaseTransitions := by
  refine ⟨fun s hs => ⟨?_, fun hlen => ?_, fun hactive => ?_⟩, fun i s t h hphase => ?_,
    fun n s t h => engineTurn_phase h, fun _ => rfl, rfl, fun s => ⟨_, rfl, statusWord_phase s⟩⟩
  · exact ⟨_, checkedWrite_of_pass (by rw [hs]; rfl), rfl⟩
  · have hfits : s.forgeryFits = true := by rw [forgeryFits_iff, paddedBits]; omega
    exact ⟨_, checkedWrite_of_pass (by rw [hs, hfits]; rfl), rfl⟩
  · exact ⟨_, checkedWrite_of_pass (by rw [hs, hactive]; rfl), rfl⟩
  · cases hostEffect_of_exec h with
    | started => exact .inl ⟨.inl rfl, rfl⟩
    | forged => exact .inl ⟨.inr rfl, rfl⟩
    | finalized _ hactive => exact .inr ⟨rfl, hactive, rfl⟩
    | rejected | ignored | answered | answeredFree | errorCleared | absorbed | wroteFlenLo | wroteFlenHi
    | wroteFdig => simp at hphase

/-- Settles O54, by the effects of a host operation: each names the operation that has it. -/
theorem hostOperationFrame : Obligations.HostOperationFrame := by
  intro i s t h
  cases hostEffect_of_exec h with
  | @absorbed _ bs hi =>
    obtain ⟨-, -, hfdig, hflen, hpadLen, hpad, -, hj, hregs, htj, hw, hwp, -, -, hscript⟩ := absorbAll_frame bs s
    simp [hi.is_data_write, hfdig, hflen, hpadLen, hpad, hj, hregs, htj, hw, hwp, hscript]
  | rejected | ignored | answered | answeredFree | errorCleared | started | finalized | wroteFlenLo
  | wroteFlenHi | wroteFdig => simp
  | forged => simp [State.forgeContext]

/-- Settles O51: while busy, an operation does the same from a state and from that state with another engine. -/
theorem noHostOperationObservesTheEngine : Obligations.NoHostOperationObservesTheEngine := by
  intro i s s' t t' hs hs' hsame h h'
  have hs'eq : s' = s.withEngine s' := hsame
  obtain ⟨ht, hexec⟩ := exec_withEngine_of_busy hs hs' h
  rw [← hs'eq] at hexec
  obtain rfl : t' = t.withEngine s' := Host.Outcome.next.inj (h'.symm.trans hexec)
  exact ⟨fun _ => rfl, rfl, statusWord_withEngine (hs'.trans ht.symm), rfl⟩

end Sys2Proof.Proofs
end

section
/-! The invariant of the core is kept by every effect of a host operation, every micro-step and a reset
(10_state.md R26 to R37, 42_compression.md R152, R160 to R166). -/

namespace Sys2Proof.Machine

/-! ## Resets, errors and reads -/

theorem engineInv_of_not_running {s : State} (hround : s.estate ≠ .round) (hfeed : s.estate ≠ .feed) :
    s.EngineInv :=
  fun _ _ _ => ⟨fun h => absurd h hround, fun h => absurd h hfeed⟩

theorem reset_inv : State.reset.Inv :=
  ⟨by unfold State.QueueInv; decide, by unfold State.ContextInv; decide, by unfold State.PadInv; decide,
    engineInv_of_not_running (by decide) (by decide)⟩

theorem jq_eq_nil_of_idle {s : State} (h : s.Inv) (hidle : s.estate = .idle) : s.jq = [] := by
  obtain ⟨⟨hqueue, -⟩, -⟩ := h
  exact hqueue.1 hidle

theorem inv_err {s : State} (h : s.Inv) {e : ErrCode} (he : e = .none ∨ e.Raisable) :
    State.Inv { s with err := e } := by
  obtain ⟨hqueue, ⟨hphase, -, -, -, hcontext⟩, hpad, hengine⟩ := h
  refine ⟨hqueue, ⟨hphase, ?_, ?_, ?_, hcontext⟩, hpad, hengine⟩ <;> rintro rfl <;>
    simp [ErrCode.Raisable] at he

theorem raiseError_inv {s : State} (h : s.Inv) {e : ErrCode} (he : e.Raisable) : (s.raiseError e).Inv := by
  unfold State.raiseError
  split
  · exact inv_err h (.inr he)
  · exact h

/-! ## The padding outputs -/

theorem padLength_bounds (len : Nat) : 9 ≤ padLength len ∧ padLength len ≤ 72 := by
  unfold padLength paddedBits
  omega

theorem padBytes_length (len : Nat) : (padBytes len).length = padLength len := by
  have := padLength_bounds len
  simp only [padBytes, be64, List.length_cons, List.length_append, List.length_replicate, List.length_nil]
  omega

/-- A word of a byte string that is zero from that word on is zero. -/
theorem words_getD_eq_zero {l : List Byte} {k : Nat} (h : ∀ b ∈ l.drop (4 * k), b = 0) :
    (words l).getD k 0 = 0 := by
  induction l using words.induct generalizing k with
  | case1 b0 b1 b2 b3 rest ih =>
    cases k with
    | zero =>
      obtain ⟨rfl, rfl, rfl, rfl, -⟩ : b0 = 0 ∧ b1 = 0 ∧ b2 = 0 ∧ b3 = 0 ∧ ∀ b ∈ rest, b = 0 := by simpa using h
      rfl
    | succ k => exact ih h
  | case2 l hl =>
    rw [words.eq_2 l hl]
    rfl

/-- `PAD18` to `PAD31` are zero: the padding is at most 72 bytes long (30_encoding.md R97). -/
theorem padStore_getElem_eq_zero (len : Nat) (k : Fin 32) (hk : 18 ≤ k.val) : (padStore len)[k] = 0 := by
  have hlen : (padBytes len).length ≤ 4 * k.val := by
    have := padLength_bounds len
    rw [padBytes_length]
    omega
  have hzero : (words (padBytes len ++ List.replicate (128 - padLength len) 0)).getD k 0 = 0 := by
    refine words_getD_eq_zero fun b hb => ?_
    rw [List.drop_append, List.drop_eq_nil_of_le hlen, List.nil_append] at hb
    exact List.eq_of_mem_replicate (List.mem_of_mem_drop hb)
  simpa [padStore] using hzero

theorem storePadding_inv {s : State} (h : s.Inv) (len : Nat) : (s.storePadding len).Inv := by
  obtain ⟨hqueue, hcontext, -, hengine⟩ := h
  have hlen : (s.storePadding len).padLen.toNat = padLength len := by
    have := padLength_bounds len
    rw [State.storePadding_padLen, BitVec.toNat_ofNat]
    omega
  exact ⟨hqueue, hcontext, ⟨.inr (by rw [hlen]; exact padLength_bounds len), padStore_getElem_eq_zero len⟩, hengine⟩

/-! ## Contexts -/

theorem startContext_inv {s : State} (h : s.Inv) (hidle : s.estate = .idle) (v : Chain) {bits : BitVec 64}
    (hmul : bits.toNat % 512 = 0) : (s.startContext v bits).Inv := by
  have hjq := jq_eq_nil_of_idle h hidle
  obtain ⟨-, ⟨-, harg, h6, h7, -⟩, hpad, -⟩ := h
  refine ⟨?_, ⟨by simp, harg, h6, h7, ?_, by simp, by simp⟩, hpad, ?_⟩
  · simp [State.QueueInv, hidle, hjq]
  · intro _
    have hbits := bits.isLt
    have hlength : bits.toNat + 8 * 0 ≤ 2 ^ 64 - 8 := by omega
    exact ⟨hmul, hlength⟩
  · exact engineInv_of_not_running (by simp [hidle]) (by simp [hidle])

theorem forgeContext_inv {s : State} (h : s.Inv) (hidle : s.estate = .idle) : s.forgeContext.Inv := by
  refine storePadding_inv (startContext_inv h hidle s.fdig ?_) _
  rw [BitVec.toNat_ofNat, paddedBits]
  omega

theorem finalBlocks_length (x : List Byte) (bits : BitVec 64) :
    1 ≤ (finalBlocks x bits).length ∧ (finalBlocks x bits).length ≤ 2 := by
  by_cases hb : x.length + 1 > 56 <;> simp [finalBlocks, hb]

theorem queueFinal_inv {s : State} (h : s.Inv) (hidle : s.estate = .idle) : s.queueFinal.Inv := by
  have hjq := jq_eq_nil_of_idle h hidle
  obtain ⟨-, ⟨-, harg, h6, h7, -⟩, hpad, -⟩ := h
  obtain ⟨hpos, hle⟩ := finalBlocks_length s.buffered s.messageBits
  refine ⟨?_, ⟨by simp, harg, h6, h7, by simp, by simp, by simp⟩, hpad, ?_⟩
  · simp [State.QueueInv, hjq, hle, List.ne_nil_of_length_pos hpos]
  · exact engineInv_of_not_running (by simp) (by simp)

/-! ## Absorbing -/

theorem toNat_add_one_of_ne_63 {j : BitVec 6} (h : j ≠ 63) : (j + 1).toNat = j.toNat + 1 := by
  bv_omega

/-- The context has room for `n` more bytes, which complete at most one block, and none if one is queued. -/
def State.HasRoom (s : State) (n : Nat) : Prop :=
  s.phase = .active ∧ s.lengthFits n = true ∧ n ≤ 63 ∧ (s.jq = [] ∨ s.bufcnt.toNat + n ≤ 63)

theorem bufferByte_inv {s : State} {n : Nat} (h : s.Inv) (hroom : s.HasRoom (n + 1)) (hlt : s.bufcnt.toNat < 63)
    (b : Byte) : (s.bufferByte b).Inv ∧ (s.bufferByte b).HasRoom n := by
  obtain ⟨hqueue, ⟨hphase, harg, h6, h7, hcount, -, -⟩, hpad, hengine⟩ := h
  obtain ⟨hactive, hfits, hn, hroom⟩ := hroom
  obtain ⟨hmul, -⟩ := hcount hactive
  rw [lengthFits_iff] at hfits
  have hcnt : (s.bufferByte b).bufcnt.toNat = s.bufcnt.toNat + 1 :=
    toNat_add_one_of_ne_63 (by rintro h63; simp [h63] at hlt)
  have hlength : s.totalbits.toNat + 8 * (s.bufferByte b).bufcnt.toNat ≤ 2 ^ 64 - 8 := by omega
  refine ⟨⟨hqueue, ⟨hphase, harg, h6, h7, fun _ => ⟨hmul, hlength⟩, fun hp => absurd hactive hp, ?_⟩, hpad,
    hengine⟩, hactive, ?_, by omega, ?_⟩
  · simp [hactive]
  · rw [lengthFits_iff, hcnt, State.bufferByte_totalbits]
    omega
  · rw [hcnt, State.bufferByte_jq]
    exact hroom.imp_right (by omega)

theorem completeBlock_inv {s : State} {n : Nat} (h : s.Inv) (hroom : s.HasRoom (n + 1))
    (hfull : s.bufcnt.toNat = 63) (b : Byte) : (s.completeBlock b).Inv ∧ (s.completeBlock b).HasRoom n := by
  obtain ⟨-, ⟨hphase, harg, h6, h7, hcount, -, -⟩, hpad, -⟩ := h
  obtain ⟨hactive, hfits, hn, hroom⟩ := hroom
  obtain ⟨hmul, -⟩ := hcount hactive
  rw [lengthFits_iff] at hfits
  have hjq : s.jq = [] := hroom.resolve_right (by omega)
  have hcnt : (s.completeBlock b).bufcnt.toNat = 0 := rfl
  have htotal : (s.completeBlock b).totalbits.toNat = s.totalbits.toNat + 512 :=
    BitVec.toNat_add_of_lt (by change _ + 512 < _; omega)
  refine ⟨⟨?_, ⟨hphase, harg, h6, h7, fun _ => by omega, fun _ => rfl, ?_⟩, hpad, ?_⟩, hactive, ?_, by omega,
    .inr (by omega)⟩
  · simp [State.QueueInv, hjq]
  · simp [hactive]
  · exact engineInv_of_not_running (by simp) (by simp)
  · rw [lengthFits_iff, htotal, hcnt]
    omega

theorem absorb_inv {s : State} {n : Nat} (h : s.Inv) (hroom : s.HasRoom (n + 1)) (b : Byte) :
    (s.absorb b).Inv ∧ (s.absorb b).HasRoom n := by
  rcases absorb_cases s b with ⟨hlt, habsorb⟩ | ⟨hfull, habsorb⟩ <;> rw [habsorb]
  · exact bufferByte_inv h hroom hlt b
  · exact completeBlock_inv h hroom hfull b

theorem absorbAll_inv (bs : List Byte) {s : State} (h : s.Inv) (hroom : s.HasRoom bs.length) :
    (s.absorbAll bs).Inv := by
  induction bs generalizing s with
  | nil => exact h
  | cons b bs ih =>
    obtain ⟨hinv, hroom⟩ := absorb_inv h hroom b
    exact ih hinv hroom

/-! ## The engine -/

theorem loadStep_inv {s : State} {blk : Block} {rest : List Block} (h : s.Inv) (hjq : s.jq = blk :: rest) :
    (s.loadStep blk).Inv := by
  obtain ⟨⟨-, hlen, hone⟩, hcontext, hpad, -⟩ := h
  refine ⟨⟨?_, hlen, hone⟩, hcontext, hpad, ?_⟩
  · simp [hjq]
  · intro blk' rest' hjq'
    obtain ⟨rfl, -⟩ : blk = blk' ∧ rest = rest' := by simpa [hjq] using hjq'
    exact ⟨fun _ => ⟨rfl, rfl, rfl, rfl⟩, by simp⟩

/-- The incremental round constant is the one of the next round (42_compression.md R152). -/
theorem nextTJ_roundConstant : ∀ j : BitVec 6, j ≠ 63 → nextTJ j (roundConstant j) = roundConstant (j + 1) := by
  decide

theorem roundsUpTo_round (w : Vector Word 68) (wp : Vector Word 64) (r : Working) (j : BitVec 6) :
    roundsUpTo w wp r (j.toNat + 1) =
      roundFn j (roundConstant j) (wAt w j) (wpAt wp j) (roundsUpTo w wp r j.toNat) := by
  simp [roundsUpTo]

/-- After the round the working registers hold the result of one round more (42_compression.md R165). -/
theorem roundStep_regs_of_engineInv {s : State} (h : s.EngineInv) (hround : s.estate = .round) {blk : Block}
    {rest : List Block} (hjq : s.jq = blk :: rest) :
    s.roundStep.regs = roundsUpTo s.w s.wp (workingOf s.v) (s.j.toNat + 1) := by
  obtain ⟨-, -, htj, hregs⟩ := (h blk rest hjq).1 hround
  rw [roundsUpTo_round, ← hregs, ← htj]
  rfl

theorem roundStep_inv {s : State} (h : s.Inv) (hround : s.estate = .round) : s.roundStep.Inv := by
  obtain ⟨⟨hqueue, hlen, hone⟩, hcontext, hpad, hengine⟩ := h
  have hjq : s.jq ≠ [] := by simp [← hqueue, hround]
  by_cases hj : s.j = 63
  · have hest : s.roundStep.estate = .feed := if_pos hj
    refine ⟨⟨iff_of_false (by rw [hest]; decide) hjq, hlen, hone⟩, hcontext, hpad, fun blk rest hq =>
      ⟨fun hr => absurd (hest.symm.trans hr) (by decide), fun _ => ?_⟩⟩
    obtain ⟨hw, hwp, -, -⟩ := (hengine blk rest hq).1 hround
    rw [roundStep_regs_of_engineInv hengine hround hq, hj, hwp, hw]
    rfl
  · have hest : s.roundStep.estate = .round := if_neg hj
    have hnext : s.roundStep.j = s.j + 1 := if_neg hj
    refine ⟨⟨iff_of_false (by rw [hest]; decide) hjq, hlen, hone⟩, hcontext, hpad, fun blk rest hq =>
      ⟨fun _ => ?_, fun hf => absurd (hest.symm.trans hf) (by decide)⟩⟩
    obtain ⟨hw, hwp, htj, -⟩ := (hengine blk rest hq).1 hround
    refine ⟨hw, hwp, ?_, ?_⟩
    · rw [hnext, ← nextTJ_roundConstant s.j hj, ← htj]
      rfl
    · rw [roundStep_regs_of_engineInv hengine hround hq, hnext, toNat_add_one_of_ne_63 hj]
      rfl

theorem feedStep_inv {s : State} {blk : Block} {rest : List Block} (h : s.Inv) (hjq : s.jq = blk :: rest) :
    (s.feedStep rest).Inv := by
  obtain ⟨⟨-, hlen, hone⟩, ⟨hphase, harg, h6, h7, hactive, hcnt, hidle⟩, hpad, -⟩ := h
  have hstarted : s.phase ≠ .idle := fun hi => by simpa [hjq] using hidle hi
  rw [hjq, List.length_cons] at hlen hone
  refine ⟨⟨?_, ?_, fun hp => ?_⟩, ⟨hphase, harg, h6, h7, hactive, hcnt, fun hp => absurd hp hstarted⟩, hpad, ?_⟩
  · by_cases hrest : rest = [] <;> simp [hrest]
  · exact Nat.le_of_succ_le hlen
  · exact Nat.le_of_succ_le (hone hp)
  · by_cases hrest : rest = [] <;> exact engineInv_of_not_running (by simp [hrest]) (by simp [hrest])

theorem microStep_inv {s t : State} (h : s.Inv) (hm : microStep s = .next t) : t.Inv := by
  obtain ⟨-, rfl⟩ | ⟨blk, rest, -, hjq, rfl⟩ | ⟨hround, rfl⟩ | ⟨blk, rest, -, hjq, rfl⟩ := microStep_cases hm
  · exact h
  · exact loadStep_inv h hjq
  · exact roundStep_inv h hround
  · exact feedStep_inv h hjq

theorem engineTurn_inv {n : Nat} {s t : State} (h : s.Inv) (he : engineTurn n s = .next t) : t.Inv :=
  engineTurn_induction (fun _ _ => microStep_inv) n s t h he

/-! ## The step -/

theorem hostEffect_inv {i : Instr} {s t : State} (h : s.Inv) (heff : HostEffect s i t) : t.Inv := by
  cases heff with
  | rejected _ he => exact raiseError_inv h he
  | errorCleared => exact inv_err h (.inl rfl)
  | started hidle => exact startContext_inv h hidle iv rfl
  | finalized hidle _ => exact queueFinal_inv h hidle
  | forged hidle _ => exact forgeContext_inv h hidle
  | absorbed hi hidle hactive hfits =>
    have hlen := hi.length_le
    exact absorbAll_inv _ h ⟨hactive, hfits, by omega, .inl (jq_eq_nil_of_idle h hidle)⟩
  | ignored | answered | answeredFree | wroteFlenLo | wroteFlenHi | wroteFdig => exact h

theorem step_inv {s t : State} (h : s.Inv) (hs : step s = .next t) : t.Inv := by
  obtain ⟨-, -, hm⟩ | ⟨rest, -, rfl⟩ | ⟨n, rest, -, -, he⟩ | ⟨a, rest, i, -, -, -, hx⟩ := step_cases hs
  · exact microStep_inv h hm
  · exact reset_inv
  · have hrest : State.Inv { s with script := rest } := h
    exact engineTurn_inv hrest he
  · have hrest : State.Inv { s with script := rest } := h
    exact hostEffect_inv hrest (hostEffect_of_exec hx)

end Sys2Proof.Machine
end

section
/-! The statements of the state family on the invariant of the core (10_state.md R26 to R41). -/

namespace Sys2Proof.Proofs

open Sys2Proof Sys2Proof.Machine

/-- Settles O13: `reset_inv`, which evaluates the parts of the invariant; no job is running. -/
theorem resetStateSatisfiesTheInvariant : Obligations.ResetStateSatisfiesTheInvariant := reset_inv

/-- Settles O14: a step is a micro-step, a reset, an engine turn or a host operation, and each keeps the
invariant. -/
theorem everyStepKeepsTheInvariant : Obligations.EveryStepKeepsTheInvariant := fun _ _ => step_inv

end Sys2Proof.Proofs
end

section
/-! What a bus access can be besides an operation, and whose window it lies in (20_memory.md R60, R67, R78;
60_exceptions.md R276, 92_eei_decisions.md D2). -/

namespace Sys2Proof

/-- Only accesses of 32 bits are operations (20_memory.md R67). -/
theorem decodeAccess_of_badWidth {bytes : Nat} (h : bytes ≠ 4) (t : BusWord) :
    decodeAccess bytes t = .error (.badWidth bytes) := by
  unfold decodeAccess
  rw [if_neg h]

/-- The first check of decoding is the alignment (30_encoding.md R92). -/
theorem decodeAccess_of_misaligned {t : BusWord} (h : (busOff t).extractLsb' 0 2 ≠ 0) :
    decodeAccess 4 t = .error (.misaligned (busOff t)) := by
  unfold decodeAccess decode
  rw [if_pos rfl, if_pos h]

/-- Windows stand in the order of the core numbers (60_exceptions.md R276). -/
theorem Config.windowSlot_strictMono : StrictMono Config.windowSlot :=
  strictMono_nat_of_lt_succ fun k => by rw [Config.windowSlot]; omega

/-- The window of a core ends before that of every later core begins. -/
theorem Config.base_add_windowBytes_le {k l : Nat} (h : k < l) : Config.base k + 256 ≤ Config.base l := by
  have hslot := Config.windowSlot_strictMono h
  unfold Config.base
  omega

namespace Machine

theorem hostTurn_of_decodeError {a : BusAccess} {e : DecodeError} (h : decodeAccess a.bytes a.word = .error e)
    (s : State) : hostTurn a s = .refused (refusalOf e) := by
  unfold hostTurn
  rw [h]

/-- Windows of different cores are disjoint. -/
theorem inWindow_base_add_of_ne {k l : Nat} (h : l ≠ k) (off : BitVec 8) :
    inWindow l (Config.base k + off.toNat) = false := by
  have hoff := off.isLt
  apply inWindow_of_outside
  rcases Nat.lt_or_gt_of_ne h with hlt | hgt
  · have := Config.base_add_windowBytes_le hlt
    omega
  · have := Config.base_add_windowBytes_le hgt
    omega

/-- A core that sees the access has it as the last turn of its script. -/
theorem present_getElem?_of_some {k addr bytes : Nat} {dir : Dir} {data : Word} {a : BusAccess}
    (h : windowAccess k dir addr bytes data = some a) (p : Platform) :
    (p.present dir addr bytes data).instances[k]? = p.instances[k]?.map fun s => s.enqueue a := by
  unfold Platform.present
  rw [List.getElem?_mapIdx, h]

/-- A core that does not see the access is left as it was. -/
theorem present_getElem?_of_none {k addr bytes : Nat} {dir : Dir} {data : Word}
    (h : windowAccess k dir addr bytes data = none) (p : Platform) :
    (p.present dir addr bytes data).instances[k]? = p.instances[k]? := by
  unfold Platform.present
  rw [List.getElem?_mapIdx, h]
  exact Option.map_id_apply

end Machine

end Sys2Proof
end

section
/-! The engine's micro-steps and the host's operations keep to different parts of a busy state (20_memory.md R73,
70_reset_and_hazards.md R301). -/

namespace Sys2Proof.Machine

/-- A micro-step changes the chaining state and the engine only. -/
theorem eq_withEngine_of_microStep {s t : State} (h : microStep s = .next t) : t = s.withEngine t := by
  obtain ⟨-, rfl⟩ | ⟨blk, rest, -, -, rfl⟩ | ⟨-, rfl⟩ | ⟨blk, rest, -, -, rfl⟩ := microStep_cases h <;> rfl

/-- A micro-step reads the chaining state and the engine only: it is the same whatever the rest of the state
`r` is. -/
theorem microStep_withEngine {s t : State} (h : microStep s = .next t) (r : State) :
    microStep (r.withEngine s) = .next (r.withEngine t) := by
  obtain ⟨hidle, rfl⟩ | ⟨blk, rest, hload, hq, rfl⟩ | ⟨hround, rfl⟩ | ⟨blk, rest, hfeed, hq, rfl⟩ :=
    microStep_cases h
  · exact microStep_idle hidle
  · exact microStep_load hload hq
  · exact microStep_round hround
  · exact microStep_feed hfeed hq

/-- While busy, every operation answers a next state, with the chaining state and the engine as they were. -/
theorem exec_keeps_engine_of_busy (i : Instr) {s : State} (hs : s.busy = true) :
    ∃ u, exec i s = .next u ∧ u = u.withEngine s := by
  obtain ⟨u, hu⟩ : ∃ u, exec i s = .next u := by
    cases busyMeaning i with
    | rejected hi | ignored hi | errorCleared hi | answeredStatus hi | answeredFree hi => exact ⟨_, hi s hs⟩
  have hself : exec i s = .next (u.withEngine s) := (exec_withEngine_of_busy hs hs hu).2
  exact ⟨u, hu, Host.Outcome.next.inj (hu.symm.trans hself)⟩

end Sys2Proof.Machine
end

section
/-! The statements of the memory family (20_memory.md R60, R67, R70, R73, R78). -/

namespace Sys2Proof.Proofs

open Sys2Proof Sys2Proof.Machine

/-- Settles O50: both orders end in the state the operation answers from `s`, with the engine of the micro-step:
the operation neither reads nor writes the engine, and the micro-step nothing else. -/
theorem hostOperationCommutesWithTheEngine : Obligations.HostOperationCommutesWithTheEngine := by
  intro i s t hs hm ht
  obtain ⟨u, hu, hkeeps⟩ := exec_keeps_engine_of_busy i hs
  have hengine : microStep u = .next (u.withEngine t) := by
    rw [hkeeps]
    exact microStep_withEngine hm u
  have hhost : exec i t = .next (u.withEngine t) := by
    rw [eq_withEngine_of_microStep hm]
    exact (exec_withEngine_of_busy hs ht hu).2
  exact ⟨u, u.withEngine t, u.withEngine t, hu, hengine, hhost, rfl, fun _ => rfl⟩

/-- Settles O60: the window of core `k` holds the address, and the windows are disjoint. -/
theorem accessReachesOneInstance : Obligations.AccessReachesOneInstance := by
  intro p dir k bytes off v
  refine ⟨Nat.mul_mod_right _ _, present_getElem?_of_some (windowAccess_base_add ..) p, fun l hl => ?_⟩
  exact present_getElem?_of_none (windowAccess_of_not_inWindow (inWindow_base_add_of_ne hl off) ..) p

/-- Settles O8: the host's turn comes to decoding, which refuses for the width first and then for the
alignment. -/
theorem misalignedOrNarrowAccessIsRefused : Obligations.MisalignedOrNarrowAccessIsRefused := by
  intro s a rest hc hs
  refine ⟨fun hwidth => ?_, fun hwidth halign => ?_⟩
  · rw [step_of_host hc hs, hostTurn_of_decodeError (decodeAccess_of_badWidth hwidth a.word)]
    rfl
  · have hdecode := decodeAccess_of_misaligned halign
    rw [← hwidth] at hdecode
    rw [step_of_host hc hs, hostTurn_of_decodeError hdecode]
    rfl

/-- Settles O21: of the effects of a host operation the two of a read are an answer, and all others are those
of a write. -/
theorem readsHaveNoSideEffect : Obligations.ReadsHaveNoSideEffect := by
  intro i s t hrd h
  cases hostEffect_of_exec h with
  | answered | answeredFree => rfl
  | rejected hwr | ignored hwr => exact absurd (hrd.symm.trans hwr) (by decide)
  | absorbed hi =>
    obtain ⟨d, rfl | rfl⟩ := hi.is_data_write <;> cases hrd
  | errorCleared | started | finalized | forged | wroteFlenLo | wroteFlenHi | wroteFdig => cases hrd

end Sys2Proof.Proofs
end

section
/-! Decoding as one equivalence: a word decodes to an operation exactly when the operation is well-formed and the
word carries its fields (30_encoding.md R90 to R92, R96). -/

namespace Sys2Proof

/-- The word has the direction and the offset of the operation and, for a write, its data (30_encoding.md R90;
the data of a read counts for nothing, R91). -/
def Instr.Carries (i : Instr) (t : BusWord) : Prop :=
  busDir t = i.dir ∧ busOff t = i.off ∧ (i.dir = .wr → busData t = i.data)

theorem carries_busWord {i : Instr} {dir : Dir} {off : BitVec 8} {d : Word} (hdir : i.dir = dir)
    (hoff : i.off = off) (hdata : dir = .wr → i.data = d) : i.Carries (busWord dir off d) := by
  refine ⟨?_, ?_, fun hwr => ?_⟩
  · rw [busDir_busWord, hdir]
  · rw [busOff_busWord, hoff]
  · rw [busData_busWord, hdata (hdir ▸ hwr)]

theorem carries_encode (i : Instr) : i.Carries (encode i) :=
  carries_busWord rfl rfl fun _ => rfl

/-- A word is made of its three fields. -/
theorem busWord_fields (t : BusWord) : busWord (busDir t) (busOff t) (busData t) = t := by
  have hdir : (busDir t).bit = t.extractLsb' 40 1 := by
    unfold busDir
    generalize t.extractLsb' 40 1 = b
    revert b
    decide
  unfold busWord busOff busData
  rw [hdir, BitVec.extractLsb'_append_extractLsb'_eq_extractLsb' (start₂ := 40) (start₁ := 32) rfl,
    BitVec.extractLsb'_append_extractLsb'_eq_extractLsb' (start₂ := 32) (start₁ := 0) rfl]
  exact BitVec.extractLsb'_eq_self

/-- A read that is well-formed has data 0 (30_encoding.md R90). -/
theorem data_eq_zero_of_rd {i : Instr} (hwf : i.wellFormed = true) (hrd : i.dir = .rd) : i.data = 0 := by
  cases i with
  | rsvd64 dir d | rsvd68 dir sel d | rsvd70 dir sel d =>
    cases hrd
    exact eq_of_beq hwf
  | rdStatus | rdTotalbitsLo | rdTotalbitsHi | rdFlenLo | rdFlenHi | rdDigest | rdFdig | rdPadLen | rdPad
  | rdCmd | rdDinByte | rdDinWord => rfl
  | wrCmdInit | wrCmdFinalize | wrCmdForgeInit | wrCmdClearErr | wrCmdReserved | wrDinByte | wrDinWord
  | wrFlenLo | wrFlenHi | wrFdig | wrStatus | wrTotalbitsLo | wrTotalbitsHi | wrDigest | wrPadLen | wrPad =>
    cases hrd

/-- The canonical word of the operation a word carries (30_encoding.md R90, R91). -/
theorem encode_of_carries {i : Instr} {t : BusWord} (hwf : i.wellFormed = true) (h : i.Carries t) :
    encode i = busWord (busDir t) (busOff t) (match busDir t with | .rd => 0 | .wr => busData t) := by
  obtain ⟨hdir, hoff, hdata⟩ := h
  unfold encode
  rw [hdir, hoff]
  cases hi : i.dir with
  | rd => rw [data_eq_zero_of_rd hwf hi]
  | wr => rw [hdata hi]

/-! ## From an operation to its word -/

theorem off_aligned (i : Instr) : i.off.extractLsb' 0 2 = 0 := by
  have bank : ∀ b k : BitVec 3, (b ++ k ++ 0#2).extractLsb' 0 2 = 0 := by decide
  have pad : ∀ k : BitVec 5, (0b1#1 ++ k ++ 0#2).extractLsb' 0 2 = 0 := by decide
  have rsvd68 : ∀ k : BitVec 1, (0b01101#5 ++ k ++ 0#2).extractLsb' 0 2 = 0 := by decide
  have rsvd70 : ∀ k : BitVec 2, (0b0111#4 ++ k ++ 0#2).extractLsb' 0 2 = 0 := by decide
  cases i with
  | rdDigest k | wrDigest k | rdFdig k | wrFdig k => exact bank _ k
  | rdPad k | wrPad k => exact pad k
  | rsvd68 _ sel => exact rsvd68 sel
  | rsvd70 _ sel => exact rsvd70 sel
  | _ =>
    rw [Instr.off]
    rfl

theorem decodeCommand_of_not_isCommandWord {d : Word} (h : isCommandWord d = false) :
    decodeCommand d = .wrCmdReserved d := by
  simp only [isCommandWord, Bool.or_eq_false_iff, beq_eq_false_iff_ne] at h
  obtain ⟨⟨⟨h1, h2⟩, h3⟩, h4⟩ := h
  unfold decodeCommand
  rw [if_neg h1, if_neg h2, if_neg h3, if_neg h4]

/-- The write half of the register map finds every write by its offset and data (30_encoding.md R96). -/
theorem decodeWrite_off_data {i : Instr} (hwf : i.wellFormed = true) (hwr : i.dir = .wr) :
    decodeWrite i.off i.data = some i := by
  unfold Instr.off Instr.data
  cases i with
  | wrCmdReserved d =>
    have hcmd : isCommandWord d = false := by simpa [Instr.wellFormed] using hwf
    exact congrArg some (decodeCommand_of_not_isCommandWord hcmd)
  | wrDigest k | wrFdig k | wrPad k =>
    obtain ⟨k⟩ := k
    dsimp only
    fin_cases k <;> rfl
  | rsvd64 dir =>
    cases hwr
    dsimp only
    rfl
  | rsvd68 dir sel | rsvd70 dir sel =>
    cases hwr
    obtain ⟨sel⟩ := sel
    dsimp only
    fin_cases sel <;> rfl
  | wrCmdInit | wrCmdFinalize | wrCmdForgeInit | wrCmdClearErr | wrDinByte | wrDinWord | wrFlenLo | wrFlenHi
  | wrStatus | wrTotalbitsLo | wrTotalbitsHi | wrPadLen =>
    dsimp only
    rfl
  | rdStatus | rdTotalbitsLo | rdTotalbitsHi | rdFlenLo | rdFlenHi | rdDigest | rdFdig | rdPadLen | rdPad
  | rdCmd | rdDinByte | rdDinWord => cases hwr

/-- The read half of the register map finds every read by its offset (30_encoding.md R96). -/
theorem decodeRead_off {i : Instr} (hwf : i.wellFormed = true) (hrd : i.dir = .rd) :
    decodeRead i.off = some i := by
  have hdata := data_eq_zero_of_rd hwf hrd
  cases i with
  | rdDigest k | rdFdig k | rdPad k =>
    obtain ⟨k⟩ := k
    fin_cases k <;> rfl
  | rsvd64 dir =>
    cases hrd
    cases hdata
    rfl
  | rsvd68 dir sel | rsvd70 dir sel =>
    cases hrd
    cases hdata
    obtain ⟨sel⟩ := sel
    fin_cases sel <;> rfl
  | rdStatus | rdTotalbitsLo | rdTotalbitsHi | rdFlenLo | rdFlenHi | rdPadLen | rdCmd | rdDinByte | rdDinWord =>
    rfl
  | wrCmdInit | wrCmdFinalize | wrCmdForgeInit | wrCmdClearErr | wrCmdReserved | wrDinByte | wrDinWord
  | wrFlenLo | wrFlenHi | wrFdig | wrStatus | wrTotalbitsLo | wrTotalbitsHi | wrDigest | wrPadLen | wrPad =>
    cases hrd

theorem decode_of_carries {i : Instr} {t : BusWord} (hwf : i.wellFormed = true) (h : i.Carries t) :
    decode t = .ok i := by
  obtain ⟨hdir, hoff, hdata⟩ := h
  unfold decode
  rw [hdir, hoff, if_neg (not_not_intro (off_aligned i))]
  cases hi : i.dir with
  | wr => simp [hdata hi, decodeWrite_off_data hwf hi]
  | rd => simp [decodeRead_off hwf hi]

/-! ## From a word to its operation -/

/-- The register map has a register or a reserved slot at every aligned offset (30_encoding.md R96, R97). -/
theorem aligned_off_cases : ∀ off : BitVec 8, off.extractLsb' 0 2 = 0 →
    off = 0x00 ∨ off = 0x04 ∨ off = 0x08 ∨ off = 0x0C ∨ off = 0x10 ∨ off = 0x14 ∨ off = 0x18 ∨ off = 0x1C ∨
    off = 0b001#3 ++ bankIndex off ++ 0#2 ∨ off = 0b010#3 ++ bankIndex off ++ 0#2 ∨ off = 0x60 ∨
    off = 0x64 ∨ off = 0b01101#5 ++ off.extractLsb' 2 1 ++ 0#2 ∨ off = 0b0111#4 ++ off.extractLsb' 2 2 ++ 0#2 ∨
    off = 0b1#1 ++ padIndex off ++ 0#2 := by decide

theorem isCommandWord_cases {d : Word} (h : isCommandWord d = true) : d = 1 ∨ d = 2 ∨ d = 3 ∨ d = 4 := by
  simpa [isCommandWord, or_assoc] using h

/-- Every word written to `CMD` is one of the four commands or a reserved one (30_encoding.md R95). -/
theorem exists_command_carries {t : BusWord} (hdir : busDir t = .wr) (hoff : busOff t = 0x00) :
    ∃ i : Instr, i.wellFormed = true ∧ i.Carries t := by
  cases hcmd : isCommandWord (busData t) with
  | false => exact ⟨.wrCmdReserved (busData t), by simp [Instr.wellFormed, hcmd], hdir, hoff, fun _ => rfl⟩
  | true =>
    obtain h | h | h | h := isCommandWord_cases hcmd
    · exact ⟨.wrCmdInit, rfl, hdir, hoff, fun _ => h⟩
    · exact ⟨.wrCmdFinalize, rfl, hdir, hoff, fun _ => h⟩
    · exact ⟨.wrCmdForgeInit, rfl, hdir, hoff, fun _ => h⟩
    · exact ⟨.wrCmdClearErr, rfl, hdir, hoff, fun _ => h⟩

theorem exists_write_carries {t : BusWord} (hdir : busDir t = .wr) (halign : (busOff t).extractLsb' 0 2 = 0) :
    ∃ i : Instr, i.wellFormed = true ∧ i.Carries t := by
  obtain h | h | h | h | h | h | h | h | h | h | h | h | h | h | h := aligned_off_cases _ halign
  · exact exists_command_carries hdir h
  · exact ⟨.wrStatus (busData t), rfl, hdir, h, fun _ => rfl⟩
  · exact ⟨.wrDinByte (busData t), rfl, hdir, h, fun _ => rfl⟩
  · exact ⟨.wrDinWord (busData t), rfl, hdir, h, fun _ => rfl⟩
  · exact ⟨.wrTotalbitsLo (busData t), rfl, hdir, h, fun _ => rfl⟩
  · exact ⟨.wrTotalbitsHi (busData t), rfl, hdir, h, fun _ => rfl⟩
  · exact ⟨.wrFlenLo (busData t), rfl, hdir, h, fun _ => rfl⟩
  · exact ⟨.wrFlenHi (busData t), rfl, hdir, h, fun _ => rfl⟩
  · exact ⟨.wrDigest _ (busData t), rfl, hdir, h, fun _ => rfl⟩
  · exact ⟨.wrFdig _ (busData t), rfl, hdir, h, fun _ => rfl⟩
  · exact ⟨.wrPadLen (busData t), rfl, hdir, h, fun _ => rfl⟩
  · exact ⟨.rsvd64 .wr (busData t), rfl, hdir, h, fun _ => rfl⟩
  · exact ⟨.rsvd68 .wr _ (busData t), rfl, hdir, h, fun _ => rfl⟩
  · exact ⟨.rsvd70 .wr _ (busData t), rfl, hdir, h, fun _ => rfl⟩
  · exact ⟨.wrPad _ (busData t), rfl, hdir, h, fun _ => rfl⟩

theorem exists_read_carries {t : BusWord} (hdir : busDir t = .rd) (halign : (busOff t).extractLsb' 0 2 = 0) :
    ∃ i : Instr, i.wellFormed = true ∧ i.Carries t := by
  obtain h | h | h | h | h | h | h | h | h | h | h | h | h | h | h := aligned_off_cases _ halign
  · exact ⟨.rdCmd, rfl, hdir, h, nofun⟩
  · exact ⟨.rdStatus, rfl, hdir, h, nofun⟩
  · exact ⟨.rdDinByte, rfl, hdir, h, nofun⟩
  · exact ⟨.rdDinWord, rfl, hdir, h, nofun⟩
  · exact ⟨.rdTotalbitsLo, rfl, hdir, h, nofun⟩
  · exact ⟨.rdTotalbitsHi, rfl, hdir, h, nofun⟩
  · exact ⟨.rdFlenLo, rfl, hdir, h, nofun⟩
  · exact ⟨.rdFlenHi, rfl, hdir, h, nofun⟩
  · exact ⟨.rdDigest _, rfl, hdir, h, nofun⟩
  · exact ⟨.rdFdig _, rfl, hdir, h, nofun⟩
  · exact ⟨.rdPadLen, rfl, hdir, h, nofun⟩
  · exact ⟨.rsvd64 .rd 0, rfl, hdir, h, nofun⟩
  · exact ⟨.rsvd68 .rd _ 0, rfl, hdir, h, nofun⟩
  · exact ⟨.rsvd70 .rd _ 0, rfl, hdir, h, nofun⟩
  · exact ⟨.rdPad _, rfl, hdir, h, nofun⟩

/-- No aligned word is without an operation (30_encoding.md R92). -/
theorem exists_carries_of_aligned {t : BusWord} (halign : (busOff t).extractLsb' 0 2 = 0) :
    ∃ i : Instr, i.wellFormed = true ∧ i.Carries t := by
  cases hdir : busDir t with
  | rd => exact exists_read_carries hdir halign
  | wr => exact exists_write_carries hdir halign

theorem aligned_of_decode {t : BusWord} {i : Instr} (h : decode t = .ok i) : (busOff t).extractLsb' 0 2 = 0 := by
  by_contra halign
  unfold decode at h
  rw [if_pos halign] at h
  cases h

/-- The decoder, said once: the operation carried by an aligned word exists, and decoding finds it, so it finds
no other. -/
theorem decode_eq_ok_iff {t : BusWord} {i : Instr} :
    decode t = .ok i ↔ i.wellFormed = true ∧ i.Carries t := by
  refine ⟨fun h => ?_, fun ⟨hwf, hcarries⟩ => decode_of_carries hwf hcarries⟩
  obtain ⟨k, hwf, hcarries⟩ := exists_carries_of_aligned (aligned_of_decode h)
  obtain rfl : k = i := Except.ok.inj ((decode_of_carries hwf hcarries).symm.trans h)
  exact ⟨hwf, hcarries⟩

end Sys2Proof
end

section
/-! The rows of the opcode table: which words a row covers, and which rows overlap (30_encoding.md R92, R103). -/

namespace Sys2Proof

/-- A row whose mask leaves the data free covers the words whose direction and offset agree with it. -/
theorem covers_busWord {r : OpRow} {dir : Dir} {off vo : BitVec 8} {vd : BitVec 1} (md : BitVec 1) (mo : BitVec 8)
    (hdir : dir.bit &&& md = vd) (hoff : off &&& mo = vo) (hmask : r.mask = md ++ mo ++ 0#32)
    (hvalue : r.value = vd ++ vo ++ 0#32) (d : Word) : r.covers (busWord dir off d) = true := by
  unfold OpRow.covers busWord
  rw [hmask, hvalue, BitVec.and_append, BitVec.and_append, BitVec.and_zero, hdir, hoff, beq_self_eq_true]

theorem covers_eq_true_iff (r : OpRow) (t : BusWord) : r.covers t = true ↔ t &&& r.mask = r.value :=
  beq_iff_eq

/-- A row with the full mask covers its own value only. -/
theorem covers_full_iff {r : OpRow} (hmask : r.mask = 0x1FFFFFFFFFF) (t : BusWord) :
    r.covers t = true ↔ t = r.value := by
  have hfull : r.mask = BitVec.allOnes 41 := hmask
  rw [covers_eq_true_iff, hfull, BitVec.and_allOnes]

/-- The row of an operation covers every word that carries it. -/
theorem row_covers_of_carries {i : Instr} {t : BusWord} (h : i.Carries t) : i.row.covers t = true := by
  have digest : ∀ k : BitVec 3, (0b001#3 ++ k ++ 0#2) &&& 0xE3#8 = 0x20#8 := by decide
  have fdig : ∀ k : BitVec 3, (0b010#3 ++ k ++ 0#2) &&& 0xE3#8 = 0x40#8 := by decide
  have pad : ∀ k : BitVec 5, (0b1#1 ++ k ++ 0#2) &&& 0x83#8 = 0x80#8 := by decide
  have rsvd68 : ∀ k : BitVec 1, (0b01101#5 ++ k ++ 0#2) &&& 0xFB#8 = 0x68#8 := by decide
  have rsvd70 : ∀ k : BitVec 2, (0b0111#4 ++ k ++ 0#2) &&& 0xF3#8 = 0x70#8 := by decide
  obtain ⟨hdir, hoff, hdata⟩ := h
  rw [← busWord_fields t, hdir, hoff]
  unfold Instr.dir Instr.off Instr.row
  cases i with
  | wrCmdInit | wrCmdFinalize | wrCmdForgeInit | wrCmdClearErr =>
    rw [hdata rfl]
    rfl
  | rdDigest k | wrDigest k =>
    dsimp only
    exact covers_busWord 1 0xE3 rfl (digest k) rfl rfl _
  | rdFdig k | wrFdig k =>
    dsimp only
    exact covers_busWord 1 0xE3 rfl (fdig k) rfl rfl _
  | rdPad k | wrPad k =>
    dsimp only
    exact covers_busWord 1 0x83 rfl (pad k) rfl rfl _
  | rsvd64 =>
    dsimp only
    exact covers_busWord 0 0xFF BitVec.and_zero rfl rfl rfl _
  | rsvd68 _ sel =>
    dsimp only
    exact covers_busWord 0 0xFB BitVec.and_zero (rsvd68 sel) rfl rfl _
  | rsvd70 _ sel =>
    dsimp only
    exact covers_busWord 0 0xF3 BitVec.and_zero (rsvd70 sel) rfl rfl _
  | _ =>
    dsimp only
    exact covers_busWord 1 0xFF rfl rfl rfl rfl _

/-- The rows of spec/opcode_table.json (30_encoding.md R103), each taken from one of its operations. -/
def opcodeTable : List OpRow :=
  [Instr.wrCmdInit, .wrCmdFinalize, .wrCmdForgeInit, .wrCmdClearErr, .wrCmdReserved 0, .wrDinByte 0, .wrDinWord 0,
   .wrFlenLo 0, .wrFlenHi 0, .wrFdig 0 0, .rdStatus, .rdTotalbitsLo, .rdTotalbitsHi, .rdFlenLo, .rdFlenHi,
   .rdDigest 0, .rdFdig 0, .rdPadLen, .rdPad 0, .wrStatus 0, .wrTotalbitsLo 0, .wrTotalbitsHi 0, .wrDigest 0 0,
   .wrPadLen 0, .wrPad 0 0, .rdCmd, .rdDinByte, .rdDinWord, .rsvd64 .rd 0, .rsvd68 .rd 0 0, .rsvd70 .rd 0 0].map
    Instr.row

theorem row_mem_opcodeTable (i : Instr) : i.row ∈ opcodeTable := by
  cases i <;> simp [opcodeTable, Instr.row]

/-- Two rows that share a word agree on the bits that both masks keep. -/
theorem value_and_mask_of_covers {r r' : OpRow} {t : BusWord} (h : r.covers t = true) (h' : r'.covers t = true) :
    r.value &&& r'.mask = r'.value &&& r.mask := by
  rw [covers_eq_true_iff] at h h'
  rw [← h, ← h', BitVec.and_assoc, BitVec.and_assoc, BitVec.and_comm r.mask]

/-- The only rows that overlap are the reserved-command row and the four rows of the commands
(30_encoding.md R103). -/
theorem opcodeTable_overlap : ∀ r ∈ opcodeTable, ∀ r' ∈ opcodeTable,
    r.value &&& r'.mask = r'.value &&& r.mask →
    r = r' ∨ (r = (Instr.wrCmdReserved 0).row ∧ r'.mask = 0x1FFFFFFFFFF) ∨
    (r' = (Instr.wrCmdReserved 0).row ∧ r.mask = 0x1FFFFFFFFFF) := by
  decide

/-- A row with the full mask is a command's row, and the one word it covers is that command's. -/
theorem decode_of_covers_of_full_mask {i : Instr} {t : BusWord} (hmask : i.row.mask = 0x1FFFFFFFFFF)
    (h : i.row.covers t = true) : decode t = .ok i := by
  rw [(covers_full_iff hmask t).1 h]
  cases i with
  | wrCmdInit | wrCmdFinalize | wrCmdForgeInit | wrCmdClearErr => rfl
  | _ => exact absurd hmask (by dsimp only [Instr.row]; decide)

end Sys2Proof
end

section
/-! The lines of the host assembler: the operation of each line, and that pseudo-operations expand to such lines
only (30_encoding.md R95, R101, R102). -/

namespace Sys2Proof.Machine

/-- The read of a named register (30_encoding.md R96, R101). -/
def RegName.readOp : RegName → Instr
  | .cmd => .rdCmd
  | .status => .rdStatus
  | .dinByte => .rdDinByte
  | .dinWord => .rdDinWord
  | .totalbitsLo => .rdTotalbitsLo
  | .totalbitsHi => .rdTotalbitsHi
  | .flenLo => .rdFlenLo
  | .flenHi => .rdFlenHi
  | .digest i => .rdDigest i
  | .fdig i => .rdFdig i
  | .padLen => .rdPadLen
  | .pad k => .rdPad k

/-- The write of a named register; a write of `CMD` is the command of its word (30_encoding.md R95, R96, R101). -/
def RegName.writeOp (v : Word) : RegName → Instr
  | .cmd => decodeCommand v
  | .status => .wrStatus v
  | .dinByte => .wrDinByte v
  | .dinWord => .wrDinWord v
  | .totalbitsLo => .wrTotalbitsLo v
  | .totalbitsHi => .wrTotalbitsHi v
  | .flenLo => .wrFlenLo v
  | .flenHi => .wrFlenHi v
  | .digest i => .wrDigest i v
  | .fdig i => .wrFdig i v
  | .padLen => .wrPadLen v
  | .pad k => .wrPad k v

/-- A register is named by the offset its operations have. -/
theorem readOp_off (r : RegName) : r.readOp.off = r.off := by
  have digest : ∀ i : BitVec 3, 0b001#3 ++ i ++ 0#2 = RegName.off (.digest i) := by decide
  have fdig : ∀ i : BitVec 3, 0b010#3 ++ i ++ 0#2 = RegName.off (.fdig i) := by decide
  have pad : ∀ k : BitVec 5, 0b1#1 ++ k ++ 0#2 = RegName.off (.pad k) := by decide
  cases r with
  | digest i => exact digest i
  | fdig i => exact fdig i
  | pad k => exact pad k
  | cmd | status | dinByte | dinWord | totalbitsLo | totalbitsHi | flenLo | flenHi | padLen => rfl

theorem decode_asmRd (r : RegName) : decode (asmRd r) = .ok r.readOp := by
  have hwf : r.readOp.wellFormed = true := by cases r <;> rfl
  have hdir : r.readOp.dir = .rd := by cases r <;> rfl
  exact decode_of_carries hwf (carries_busWord hdir (readOp_off r) nofun)

theorem decode_asmWr_cmd (v : Word) : decode (asmWr .cmd v) = .ok (decodeCommand v) := by
  unfold decode asmWr
  rw [busDir_busWord, busOff_busWord, busData_busWord]
  rfl

theorem decode_asmWr (r : RegName) (v : Word) : decode (asmWr r v) = .ok (r.writeOp v) := by
  have hoff := readOp_off r
  cases r with
  | cmd => exact decode_asmWr_cmd v
  | _ => exact decode_of_carries rfl (carries_busWord rfl hoff fun _ => rfl)

/-- The words of the lines `RD <reg>` and `WR <reg>, <value>`. -/
def IsLine (t : BusWord) : Prop := (∃ r, t = asmRd r) ∨ ∃ r v, t = asmWr r v

theorem isLine_asmRd (r : RegName) : IsLine (asmRd r) := .inl ⟨r, rfl⟩

theorem isLine_asmWr (r : RegName) (v : Word) : IsLine (asmWr r v) := .inr ⟨r, v, rfl⟩

/-- A line is a canonical word: encoding the operation it decodes to gives it back. -/
theorem exists_decode_encode_of_isLine {t : BusWord} (h : IsLine t) : ∃ i, decode t = .ok i ∧ encode i = t := by
  obtain ⟨r, rfl⟩ | ⟨r, v, rfl⟩ := h
  · refine ⟨_, decode_asmRd r, ?_⟩
    obtain ⟨hwf, hcarries⟩ := decode_eq_ok_iff.1 (decode_asmRd r)
    rw [encode_of_carries hwf hcarries, asmRd, busDir_busWord, busOff_busWord]
  · refine ⟨_, decode_asmWr r v, ?_⟩
    obtain ⟨hwf, hcarries⟩ := decode_eq_ok_iff.1 (decode_asmWr r v)
    rw [encode_of_carries hwf hcarries, asmWr, busDir_busWord, busOff_busWord, busData_busWord]

theorem isLine_of_mem_waitLines {n : Nat} {t : BusWord} (h : t ∈ waitLines n) : IsLine t :=
  List.eq_of_mem_replicate h ▸ isLine_asmRd .status

/-- `FEEDW` and `FEEDB` are a write and a `WAIT` (30_encoding.md R102). -/
theorem isLine_of_mem_write_wait {r : RegName} {v : Word} {n : Nat} {t : BusWord}
    (h : t ∈ asmWr r v :: waitLines n) : IsLine t := by
  obtain rfl | h := List.mem_cons.1 h
  · exact isLine_asmWr r v
  · exact isLine_of_mem_waitLines h

theorem isLine_of_mem_feedBytes {ns : List Nat} {bs : List Byte} {t : BusWord} (h : t ∈ feedBytes ns bs) :
    IsLine t := by
  induction ns, bs using feedBytes.induct with
  | case1 ns b0 b1 b2 b3 rest ih =>
    rw [feedBytes] at h
    exact (List.mem_append.1 h).elim isLine_of_mem_write_wait ih
  | case2 ns b rest hshort ih =>
    rw [feedBytes.eq_2 _ _ _ hshort] at h
    exact (List.mem_append.1 h).elim isLine_of_mem_write_wait ih
  | case3 ns => cases h

theorem isLine_of_mem_expand {p : Pseudo} {t : BusWord} (h : t ∈ p.expand) : IsLine t := by
  cases p with
  | cmd name => exact List.mem_singleton.1 h ▸ isLine_asmWr ..
  | wait n => exact isLine_of_mem_waitLines h
  | feedw w n => exact isLine_of_mem_write_wait h
  | feedb b n => exact isLine_of_mem_write_wait h
  | feed bytes ns => exact isLine_of_mem_feedBytes h
  | setlen len =>
    obtain rfl | h := List.mem_cons.1 h
    · exact isLine_asmWr ..
    · exact List.mem_singleton.1 h ▸ isLine_asmWr ..
  | setfdig ws =>
    obtain ⟨i, -, rfl⟩ := List.mem_map.1 h
    exact isLine_asmWr ..
  | readdigest =>
    obtain ⟨i, -, rfl⟩ := List.mem_map.1 h
    exact isLine_asmRd _
  | readpad =>
    obtain rfl | h := List.mem_cons.1 h
    · exact isLine_asmRd _
    · obtain ⟨k, -, rfl⟩ := List.mem_map.1 h
      exact isLine_asmRd _

/-- With fewer than four bytes left, `FEED` feeds the first byte alone (30_encoding.md R102). -/
theorem feedBytes_of_short {b : Byte} {rest : List Byte} (h : rest.length < 3) (ns : List Nat) :
    feedBytes ns (b :: rest) = feedbLines b (ns.headD 0) ++ feedBytes ns.tail rest := by
  refine feedBytes.eq_2 _ _ _ fun b1 b2 b3 tl heq => ?_
  rw [heq] at h
  simp only [List.length_cons] at h
  omega

theorem lowHalf_eq_ofNat (x : BitVec 64) : lowHalf x = BitVec.ofNat 32 x.toNat := rfl

theorem highHalf_eq_ofNat (x : BitVec 64) : highHalf x = BitVec.ofNat 32 (x.toNat / 2 ^ 32) := by
  rw [← Nat.shiftRight_eq_div_pow]
  rfl

theorem map_decode_waitLines (n : Nat) :
    (waitLines n).map decode = List.replicate (n + 1) (.ok .rdStatus) := by
  rw [waitLines, List.map_replicate, decode_asmRd, RegName.readOp]

theorem map_decode_asmRd {α : Type} (f : α → RegName) (l : List α) :
    (l.map fun a => asmRd (f a)).map decode = l.map fun a => .ok (f a).readOp := by
  simp [decode_asmRd]

theorem map_decode_asmWr {α : Type} (f : α → RegName) (g : α → Word) (l : List α) :
    (l.map fun a => asmWr (f a) (g a)).map decode = l.map fun a => .ok ((f a).writeOp (g a)) := by
  simp [decode_asmWr]

end Sys2Proof.Machine
end

section
/-! The statements of the encoding family (30_encoding.md R90 to R103). -/

namespace Sys2Proof.Proofs

open Sys2Proof Sys2Proof.Machine

/-- Settles O1: the word of an operation carries its fields, and decoding finds the operation carried. -/
theorem decodeOfEncodeIsIdentity : Obligations.DecodeOfEncodeIsIdentity :=
  fun i hwf => decode_of_carries hwf (carries_encode i)

/-- Settles O2: a word carries the operation it decodes to, which fixes all fields but the data of a read. -/
theorem encodeOfDecodeIsCanonicalWord : Obligations.EncodeOfDecodeIsCanonicalWord := by
  intro t i h
  obtain ⟨hwf, hcarries⟩ := decode_eq_ok_iff.1 h
  refine ⟨hwf, (encode_of_carries hwf hcarries).trans ?_⟩
  cases busDir t <;> rfl

/-- Settles O3: the row of the carried operation covers the word, and rows overlap at the commands only; a word
that a row with the full mask covers decodes to the command of that row. -/
theorem everyAlignedWordHasOneTableRow : Obligations.EveryAlignedWordHasOneTableRow := by
  intro t halign
  obtain ⟨i, hwf, hcarries⟩ := exists_carries_of_aligned halign
  have hcovers := row_covers_of_carries hcarries
  refine ⟨i, decode_of_carries hwf hcarries, hcovers, fun k hk => ?_⟩
  obtain h | h | ⟨-, hfull⟩ := opcodeTable_overlap _ (row_mem_opcodeTable k) _ (row_mem_opcodeTable i)
    (value_and_mask_of_covers hk hcovers)
  · exact .inl h
  · exact .inr h
  · have hdecode := decode_of_covers_of_full_mask hfull hk
    rw [decode_of_carries hwf hcarries] at hdecode
    rw [Except.ok.inj hdecode]
    exact .inl rfl

/-- Settles O6: each line decodes to the operation of its register, and each expansion is a list of lines. -/
theorem assemblerLinesDecodeToNamedOperations : Obligations.AssemblerLinesDecodeToNamedOperations := by
  refine ⟨fun n => ?_, fun r v hr => ?_, fun r => ?_, fun n => rfl, map_decode_waitLines, fun w n => ?_,
    fun b n => ?_, fun ns => rfl, fun b0 b1 b2 b3 rest n ns => rfl, fun b rest n ns h => feedBytes_of_short h _,
    fun len => ?_, fun ws => ?_, ?_, ?_, fun p t ht => exists_decode_encode_of_isLine (isLine_of_mem_expand ht)⟩
  · rw [decode_asmWr]
    cases n <;> rfl
  · rw [decode_asmWr]
    cases r with
    | cmd => exact absurd rfl hr
    | _ => rfl
  · rw [decode_asmRd]
    cases r <;> rfl
  · rw [Pseudo.expand, feedwLines, List.map_cons, map_decode_waitLines, decode_asmWr]
    rfl
  · rw [Pseudo.expand, feedbLines, List.map_cons, map_decode_waitLines, decode_asmWr, BitVec.ofNat_toNat]
    rfl
  · rw [Pseudo.expand, List.map_cons, List.map_cons, decode_asmWr, decode_asmWr, lowHalf_eq_ofNat, highHalf_eq_ofNat]
    rfl
  · rw [Pseudo.expand, map_decode_asmWr]
    rfl
  · rw [Pseudo.expand, map_decode_asmRd]
    rfl
  · rw [Pseudo.expand, List.map_cons, decode_asmRd, map_decode_asmRd]
    rfl

/-- Settles O4: each word decodes by evaluation. -/
theorem specWordsDecodeAsListed : Obligations.SpecWordsDecodeAsListed := by
  unfold Obligations.SpecWordsDecodeAsListed
  decide

end Sys2Proof.Proofs
end

section
/-! The bitwise primitives bit by bit, and rotation as a linear map (40_primitives.md R120 to R126). -/

namespace Sys2Proof.Machine

/-- The branch of `rotl32` for amounts that are 0 modulo 32 is the general one: the word shifted right by 32 is 0. -/
theorem rotl32_eq_rotateLeft (x : Word) (n : Nat) : rotl32 x n = x.rotateLeft n := by
  rw [BitVec.rotateLeft_def]
  simp only [rotl32]
  split
  case isTrue hm => rw [hm, BitVec.shiftLeft_zero, BitVec.ushiftRight_eq_zero (Nat.le_refl 32), BitVec.or_zero]
  case isFalse => rfl

theorem getLsbD_rotl32 (x : Word) (n : Nat) {k : Nat} (hk : k < 32) :
    (rotl32 x n).getLsbD k = x.getLsbD ((k + 32 - n % 32) % 32) := by
  rw [rotl32_eq_rotateLeft, BitVec.getLsbD_rotateLeft]
  by_cases hwrap : k < n % 32
  · have hplace : (k + 32 - n % 32) % 32 = 32 - n % 32 + k := by omega
    simp [hwrap, hplace]
  · have hplace : (k + 32 - n % 32) % 32 = k - n % 32 := by omega
    simp [hwrap, hplace, hk]

theorem rotl32_xor (x y : Word) (n : Nat) : rotl32 (x ^^^ y) n = rotl32 x n ^^^ rotl32 y n := by
  refine BitVec.eq_of_getLsbD_eq fun k hk => ?_
  simp only [BitVec.getLsbD_xor, getLsbD_rotl32 _ _ hk]

theorem getLsbD_ff0 (x y z : Word) (k : Nat) :
    (ff0 x y z).getLsbD k = ((x.getLsbD k != y.getLsbD k) != z.getLsbD k) := by
  rw [ff0, BitVec.getLsbD_xor, BitVec.getLsbD_xor]

theorem getLsbD_ff1 (x y z : Word) (k : Nat) :
    (ff1 x y z).getLsbD k = Bool.atLeastTwo (x.getLsbD k) (y.getLsbD k) (z.getLsbD k) := by
  rw [ff1, BitVec.getLsbD_or, BitVec.getLsbD_or, BitVec.getLsbD_and, BitVec.getLsbD_and, BitVec.getLsbD_and]

theorem getLsbD_gg1 (x y z : Word) {k : Nat} (hk : k < 32) :
    (gg1 x y z).getLsbD k = if x.getLsbD k then y.getLsbD k else z.getLsbD k := by
  rw [gg1, BitVec.getLsbD_or, BitVec.getLsbD_and, BitVec.getLsbD_and, BitVec.getLsbD_not]
  cases x.getLsbD k <;> simp [hk]

end Sys2Proof.Machine
end

section
/-! The endian normalizer: the value of a word, and bytes and words as inverse to each other
(40_primitives.md R130 to R132). -/

namespace Sys2Proof.Machine

theorem toNat_append_byte {n : Nat} (x : BitVec n) (b : Byte) : (x ++ b).toNat = x.toNat * 2 ^ 8 + b.toNat := by
  rw [BitVec.toNat_append, ← Nat.shiftLeft_add_eq_or_of_lt b.isLt, Nat.shiftLeft_eq]

theorem be32_toNat (b0 b1 b2 b3 : Byte) :
    (be32 b0 b1 b2 b3).toNat = b0.toNat * 2 ^ 24 + b1.toNat * 2 ^ 16 + b2.toNat * 2 ^ 8 + b3.toNat := by
  simp only [be32, toNat_append_byte]
  omega

/-- Each byte of a word is one digit of the word's value in base 256. -/
theorem bytes32_be32 (b0 b1 b2 b3 : Byte) : bytes32 (be32 b0 b1 b2 b3) = [b0, b1, b2, b3] := by
  simp only [bytes32, List.cons.injEq, and_true, ← BitVec.toNat_inj, BitVec.extractLsb'_toNat,
    Nat.shiftRight_eq_div_pow, be32_toNat]
  omega

theorem be32_bytes32 (w : Word) :
    be32 (w.extractLsb' 24 8) (w.extractLsb' 16 8) (w.extractLsb' 8 8) (w.extractLsb' 0 8) = w := by
  rw [← BitVec.toNat_inj, be32_toNat]
  simp only [BitVec.extractLsb'_toNat, Nat.shiftRight_eq_div_pow]
  omega

theorem unwords_words {s : List Byte} (h : s.length % 4 = 0) : unwords (words s) = s := by
  induction s using words.induct with
  | case1 b0 b1 b2 b3 rest ih =>
    have hrest : rest.length % 4 = 0 := by
      simp only [List.length_cons] at h
      omega
    rw [words, unwords, bytes32_be32, ih hrest]
    rfl
  | case2 l hl =>
    match l with
    | [] => rfl
    | [_] | [_, _] | [_, _, _] => contradiction
    | b0 :: b1 :: b2 :: b3 :: rest => exact (hl b0 b1 b2 b3 rest rfl).elim

theorem words_unwords (w : List Word) : words (unwords w) = w := by
  induction w with
  | nil => rfl
  | cons x rest ih => exact congrArg₂ List.cons (be32_bytes32 x) ih

/-- The bytes of `be64` are the digits of the value in base 256, the most significant first. -/
theorem foldl_be64 (v : BitVec 64) : (be64 v).foldl (fun acc b => 256 * acc + b.toNat) 0 = v.toNat := by
  simp only [be64, List.foldl_cons, List.foldl_nil, BitVec.extractLsb'_toNat, Nat.shiftRight_eq_div_pow]
  omega

end Sys2Proof.Machine
end

section
/-! The statements of the primitives family (40_primitives.md R120 to R132). -/

namespace Sys2Proof.Proofs

open Sys2Proof Sys2Proof.Machine

/-- Settles O38: the bit lemma of each primitive; `GG0` is the same formula as `FF0`. -/
theorem primitivesBitByBit : Obligations.PrimitivesBitByBit := fun x y z n _ hk =>
  ⟨getLsbD_rotl32 x n hk, getLsbD_ff0 x y z _, rfl, getLsbD_ff1 x y z _, getLsbD_gg1 x y z hk⟩

/-- Settles O40: a group of four bytes and its word determine each other, and both directions go group by group. -/
theorem wordsAndUnwordsAreInverse : Obligations.WordsAndUnwordsAreInverse :=
  ⟨fun _ => unwords_words, words_unwords⟩

/-- Settles O41: bytes are the digits of the value in base 256. -/
theorem bigEndianValues : Obligations.BigEndianValues :=
  ⟨be32_toNat, fun v => ⟨rfl, foldl_be64 v⟩⟩

/-- Settles O39: the model's rotation is the library's, and it is linear over exclusive-or. -/
theorem permutationsAreLinear : Obligations.PermutationsAreLinear := by
  intro x y
  simp only [p0, p1, rotl32_xor]
  refine ⟨?_, ?_, ?_, ?_⟩
  · rw [rotl32_eq_rotateLeft, rotl32_eq_rotateLeft]
  · rw [rotl32_eq_rotateLeft, rotl32_eq_rotateLeft]
  · ac_rfl
  · ac_rfl

end Sys2Proof.Proofs
end

section
/-! The message schedule: the words of a block, the recurrence of the extended words, and both lists of expanded
words by index (41_message_schedule.md R140 to R142). -/

namespace Sys2Proof.Machine

/-! ## The words of a block -/

/-- The remaining case of `words`: fewer than four bytes are left. -/
theorem length_lt_four {l : List Byte}
    (h : ∀ (b0 b1 b2 b3 : Byte) (rest : List Byte), l = b0 :: b1 :: b2 :: b3 :: rest → False) :
    l.length < 4 := by
  match l with
  | [] | [_] | [_, _] | [_, _, _] => simp
  | b0 :: b1 :: b2 :: b3 :: rest => exact (h b0 b1 b2 b3 rest rfl).elim

theorem length_words (s : List Byte) : (words s).length = s.length / 4 := by
  induction s using words.induct with
  | case1 b0 b1 b2 b3 rest ih =>
    simp only [words, List.length_cons, ih]
    omega
  | case2 l hl => rw [words.eq_2 l hl, List.length_nil, Nat.div_eq_of_lt (length_lt_four hl)]

/-- The word at index `i` is `be32` of the four bytes from `4 * i`. -/
theorem getD_words {s : List Byte} {i : Nat} (h : 4 * i + 3 < s.length) :
    (words s).getD i 0 = be32 s[4 * i] s[4 * i + 1] s[4 * i + 2] s[4 * i + 3] := by
  induction s using words.induct generalizing i with
  | case1 b0 b1 b2 b3 rest ih =>
    cases i with
    | zero => rfl
    | succ k =>
      have hrest : 4 * k + 3 < rest.length := by
        simp only [List.length_cons] at h
        omega
      exact ih hrest
  | case2 l hl =>
    have hshort := length_lt_four hl
    omega

/-! ## The recurrence -/

theorem prefix_extendW (n : Nat) (w : List Word) : w <+: extendW n w := by
  induction n generalizing w with
  | zero => exact List.prefix_rfl
  | succ n ih => exact (List.prefix_append w [nextW w]).trans (ih _)

theorem length_extendW (n : Nat) (w : List Word) : (extendW n w).length = w.length + n := by
  induction n generalizing w with
  | zero => rfl
  | succ n ih =>
    rw [extendW, ih, List.length_append, List.length_singleton]
    omega

theorem getD_extendW_of_lt {n i : Nat} {w : List Word} (h : i < w.length) :
    (extendW n w).getD i 0 = w.getD i 0 := by
  obtain ⟨added, hadded⟩ := prefix_extendW n w
  rw [← hadded, List.getD_append _ _ _ _ h]

/-- Each added word is computed from the words before it. -/
theorem getD_extendW_of_le {n i : Nat} {w : List Word} (h : w.length ≤ i) (hi : i < w.length + n) :
    (extendW n w).getD i 0 = nextW ((extendW n w).take i) := by
  induction n generalizing w with
  | zero => omega
  | succ n ih =>
    have hlen : (w ++ [nextW w]).length = w.length + 1 := List.length_append
    rw [extendW]
    obtain rfl | hlt := h.eq_or_lt
    · have htake : (extendW n (w ++ [nextW w])).take w.length = w :=
        (List.prefix_iff_eq_take.mp (prefix_extendW (n + 1) w)).symm
      rw [htake, getD_extendW_of_lt (by omega), List.getD_append_right _ _ _ _ le_rfl, Nat.sub_self]
      rfl
    · exact ih (by omega) (by omega)

/-- `nextW` at index `i + 16`, with the offsets of R141 counted from `i`. -/
theorem nextW_take {l : List Word} {i : Nat} (h : i + 16 ≤ l.length) :
    nextW (l.take (i + 16)) =
      p1 (l.getD i 0 ^^^ l.getD (i + 7) 0 ^^^ rotl32 (l.getD (i + 13) 0) 15) ^^^
        rotl32 (l.getD (i + 3) 0) 7 ^^^ l.getD (i + 10) 0 := by
  have hget (k : Nat) (hk : k < i + 16) : (l.take (i + 16)).getD k 0 = l.getD k 0 := by
    rw [List.getD_eq_getElem?_getD, List.getD_eq_getElem?_getD, List.getElem?_take_of_lt hk]
  have hlen : (l.take (i + 16)).length = i + 16 := List.length_take_of_le h
  simp only [nextW, hlen]
  rw [hget _ (by omega), hget _ (by omega), hget _ (by omega), hget _ (by omega), hget _ (by omega)]
  rfl

/-! ## The expanded words -/

theorem getElem_expandW (blk : Block) {i : Nat} (hi : i < 68) :
    (expandW blk)[i] = (extendW 52 (words blk.toList)).getD i 0 :=
  Vector.getElem_ofFn _

theorem getElem_expandWp (w : Vector Word 68) {j : Nat} (hj : j < 64) :
    (expandWp w)[j] = w[j] ^^^ w[j + 4] :=
  Vector.getElem_ofFn _

theorem length_words_block (blk : Block) : (words blk.toList).length = 16 := by
  rw [length_words, Vector.length_toList]

/-- `W[0..15]` (41_message_schedule.md R140). -/
theorem getElem_expandW_of_lt (blk : Block) {i : Nat} (hi : i < 16) :
    (expandW blk)[i] = be32 blk[4 * i] blk[4 * i + 1] blk[4 * i + 2] blk[4 * i + 3] := by
  have hlen := length_words_block blk
  rw [getElem_expandW, getD_extendW_of_lt (by omega), getD_words (by rw [Vector.length_toList]; omega)]
  rfl

/-- `W[16..67]` (41_message_schedule.md R141). -/
theorem getElem_expandW_add (blk : Block) {i : Nat} (hi : i < 52) :
    (expandW blk)[i + 16] =
      p1 ((expandW blk)[i] ^^^ (expandW blk)[i + 7] ^^^ rotl32 (expandW blk)[i + 13] 15) ^^^
        rotl32 (expandW blk)[i + 3] 7 ^^^ (expandW blk)[i + 10] := by
  have hlen := length_words_block blk
  have hext := length_extendW 52 (words blk.toList)
  simp only [getElem_expandW]
  rw [getD_extendW_of_le (by omega) (by omega), nextW_take (by omega)]

end Sys2Proof.Machine
end

section
/-! The statement of the message schedule family (41_message_schedule.md R140 to R142). -/

namespace Sys2Proof.Proofs

open Sys2Proof Sys2Proof.Machine

/-- Settles O42: each added word is computed from the list before it, which the later words leave as it is, so the
indices counted back from its end are those of the finished list. -/
theorem expansionFollowsTheRecurrence : Obligations.ExpansionFollowsTheRecurrence := fun blk =>
  ⟨fun i => getElem_expandW_of_lt blk i.isLt, fun i => getElem_expandW_add blk i.isLt,
    fun j => getElem_expandWp (expandW blk) j.isLt⟩

end Sys2Proof.Proofs
end

section
/-! The engine's micro-steps, inverted by `ESTATE`, and the engine's turn in the step of the machine
(42_compression.md R161 to R166). -/

namespace Sys2Proof.Machine

theorem microStep_load_empty {s : State} (h : s.estate = .load) (hq : s.jq = []) :
    microStep s = .fault .loadWithEmptyQueue := by
  unfold microStep
  rw [h, hq]

theorem eq_loadStep_of_microStep {s t : State} (h : microStep s = .next t) (he : s.estate = .load) :
    ∃ blk, t = s.loadStep blk := by
  cases hq : s.jq with
  | nil => cases h.symm.trans (microStep_load_empty he hq)
  | cons blk rest => exact ⟨blk, Host.Outcome.next.inj (h.symm.trans (microStep_load he hq))⟩

theorem eq_roundStep_of_microStep {s t : State} (h : microStep s = .next t) (he : s.estate = .round) :
    t = s.roundStep :=
  Host.Outcome.next.inj (h.symm.trans (microStep_round he))

/-- `j` does not grow past 63 (42_compression.md R165). -/
theorem roundStep_j_toNat (s : State) :
    s.roundStep.j.toNat = if s.j.toNat = 63 then 63 else s.j.toNat + 1 := by
  by_cases hj : s.j = 63
  · simp [hj]
  · have hne : s.j.toNat ≠ 63 := fun h => hj (BitVec.eq_of_toNat_eq h)
    rw [State.roundStep_j, if_neg hj, if_neg hne, toNat_add_one_of_ne_63 hj]

theorem getElem?_eq_wAt (w : Vector Word 68) (j : BitVec 6) : w[j.toNat]? = some (wAt w j) :=
  Vector.getElem?_eq_getElem _

theorem getElem?_eq_wpAt (wp : Vector Word 64) (j : BitVec 6) : wp[j.toNat]? = some (wpAt wp j) :=
  Vector.getElem?_eq_getElem _

/-- An idle engine has no step, whatever its turn is (42_compression.md R161). -/
theorem engineTurn_idle (n : Nat) {s : State} (h : s.estate = .idle) : engineTurn n s = .next s := by
  induction n with
  | zero => rfl
  | succ n ih => rw [engineTurn_succ n (microStep_idle h), ih]

theorem engineTurn_one (s : State) : engineTurn 1 s = microStep s := by
  unfold engineTurn
  cases microStep s <;> rfl

/-- An engine turn changes the chaining state and the engine only. -/
theorem eq_withEngine_of_engineTurn {n : Nat} {s t : State} (h : engineTurn n s = .next t) :
    t = s.withEngine t := by
  refine engineTurn_induction (P := fun u => u = s.withEngine u) (fun u w hu hm => ?_) n s t rfl h
  calc w = u.withEngine w := eq_withEngine_of_microStep hm
    _ = (s.withEngine u).withEngine w := congrArg (fun x => x.withEngine w) hu
    _ = s.withEngine w := rfl

theorem step_of_engine {s : State} {n : Nat} {rest : List Turn} (hc : s.inconsistency = none)
    (hs : s.script = .engine n :: rest) : step s = engineTurn n { s with script := rest } := by
  unfold step nextTurn
  rw [hs]
  exact ifConsistent_of_none (by rwa [inconsistency_script]) _

/-- With no turn placed, the step is a micro-step, which changes nothing when the engine is idle. -/
theorem step_of_no_turn {s : State} (hc : s.inconsistency = none) (hs : s.script = []) :
    step s = microStep s := by
  unfold step nextTurn
  rw [hs]
  exact ifConsistent_of_none hc _

end Sys2Proof.Machine
end

section
/-! The incremental round constant (42_compression.md R151, R152). -/

namespace Sys2Proof.Machine

/-- `T'j` as R151 has it, the round index a number. -/
theorem roundConstant_ofNat {j : Nat} (hj : j < 64) :
    roundConstant (BitVec.ofNat 6 j) = rotl32 (if j < 16 then 0x79cc4519 else 0x7a879d8a) (j % 32) := by
  have hval : (BitVec.ofNat 6 j).toNat = j := Nat.mod_eq_of_lt hj
  unfold roundConstant
  rw [hval]

/-- A sequence with the schedule of `TJ` holds `T'j` at every round index. -/
theorem eq_roundConstant_of_schedule {tj : Nat → Word} (hfirst : tj 0 = 0x79cc4519)
    (hnext : ∀ n, n < 63 → tj (n + 1) = if n = 15 then 0x9d8a7a87 else rotl32 (tj n) 1) {j : Nat} (hj : j < 64) :
    tj j = roundConstant (BitVec.ofNat 6 j) := by
  induction j with
  | zero => exact hfirst
  | succ n ih =>
    have hval : (BitVec.ofNat 6 n).toNat = n := Nat.mod_eq_of_lt (by omega)
    have hlast : BitVec.ofNat 6 n ≠ 63 := by bv_omega
    have h15 : BitVec.ofNat 6 n = 15 ↔ n = 15 := by rw [← BitVec.toNat_inj, hval]; rfl
    calc tj (n + 1) = nextTJ (BitVec.ofNat 6 n) (tj n) := by simp only [hnext n (by omega), nextTJ, h15]
      _ = roundConstant (BitVec.ofNat 6 n + 1) := by rw [ih (by omega), nextTJ_roundConstant _ hlast]
      _ = roundConstant (BitVec.ofNat 6 (n + 1)) := congrArg roundConstant (BitVec.ofNat_add n 1).symm

end Sys2Proof.Machine
end

section
/-! The whole job: what its micro-steps keep, how many are left, and where they end (42_compression.md R160 to
R167). -/

namespace Sys2Proof.Machine

theorem inconsistency_of_inv {s : State} (h : s.Inv) : s.inconsistency = none := by
  obtain ⟨⟨hqueue, hlen, -⟩, ⟨hphase, -, h6, h7, -⟩, -⟩ := h
  have hload : ¬(s.estate = .load ∧ s.jq = []) := fun ⟨hl, hq⟩ => by simp [hqueue.2 hq] at hl
  unfold State.inconsistency
  rw [if_neg (by omega), if_neg hload, if_neg hphase, if_neg (by simp [h6, h7])]

/-- A running engine has the block it works on at the head of the queue (42_compression.md R160, R166). -/
theorem jq_eq_cons_of_busy {s : State} (h : s.Inv) (hbusy : s.estate ≠ .idle) :
    ∃ blk rest, s.jq = blk :: rest := by
  obtain ⟨⟨hqueue, -⟩, -⟩ := h
  exact List.exists_cons_of_ne_nil fun hq => hbusy (hqueue.2 hq)

/-! ## The result -/

theorem eventual_of_jq_nil {s : State} (h : s.jq = []) : s.eventual = s.v := by
  rw [State.eventual, h, List.foldl_nil]

/-- FEED completes the compression of the head block (42_compression.md R154, R166). -/
theorem feedForward_of_engineInv {s : State} {blk : Block} {rest : List Block} (h : s.EngineInv)
    (hfeed : s.estate = .feed) (hjq : s.jq = blk :: rest) : feedForward s.v s.regs = compress s.v blk := by
  rw [(h blk rest hjq).2 hfeed]
  rfl

/-- The result of the job is the same after every micro-step: only FEED moves a compression from the queue into
`V`. -/
theorem microStep_eventual {s t : State} (h : s.Inv) (hm : microStep s = .next t) : t.eventual = s.eventual := by
  obtain ⟨-, rfl⟩ | ⟨blk, rest, -, -, rfl⟩ | ⟨-, rfl⟩ | ⟨blk, rest, hfeed, hjq, rfl⟩ := microStep_cases hm
  · rfl
  · rfl
  · rfl
  · obtain ⟨-, -, -, hengine⟩ := h
    have hv := feedForward_of_engineInv hengine hfeed hjq
    rw [State.eventual, State.feedStep_jq, State.feedStep_v, hv, State.eventual, hjq, List.foldl_cons]

theorem engineTurn_eventual {n : Nat} {s t : State} (h : s.Inv) (he : engineTurn n s = .next t) :
    t.eventual = s.eventual := by
  have hkeeps : t.Inv ∧ t.eventual = s.eventual :=
    engineTurn_induction (P := fun u => u.Inv ∧ u.eventual = s.eventual)
      (fun _ _ ⟨hu, heq⟩ hm => ⟨microStep_inv hu hm, (microStep_eventual hu hm).trans heq⟩) n s t ⟨h, rfl⟩ he
  exact hkeeps.2

/-! ## The length -/

theorem microStepsLeft_idle {s : State} (h : s.estate = .idle) : s.microStepsLeft = 0 := by
  unfold State.microStepsLeft
  rw [h]

theorem microStepsLeft_load {s : State} (h : s.estate = .load) : s.microStepsLeft = 66 * s.jq.length := by
  unfold State.microStepsLeft
  rw [h, Config.microStepsPerBlock]

theorem microStepsLeft_round {s : State} (h : s.estate = .round) :
    s.microStepsLeft = 66 * s.jq.length - 1 - s.j.toNat := by
  unfold State.microStepsLeft
  rw [h, Config.microStepsPerBlock]

theorem microStepsLeft_feed {s : State} (h : s.estate = .feed) : s.microStepsLeft = 66 * s.jq.length - 65 := by
  unfold State.microStepsLeft
  rw [h, Config.microStepsPerBlock]

/-- Two blocks take 132 micro-steps (42_compression.md R160, R163). -/
theorem microStepsLeft_le {s : State} (h : s.Inv) : s.microStepsLeft ≤ 132 := by
  obtain ⟨⟨-, hlen, -⟩, -⟩ := h
  cases he : s.estate with
  | idle => rw [microStepsLeft_idle he]; omega
  | load => rw [microStepsLeft_load he]; omega
  | round => rw [microStepsLeft_round he]; omega
  | feed => rw [microStepsLeft_feed he]; omega

theorem roundStep_microStepsLeft {s : State} (hround : s.estate = .round) (hpos : 0 < s.jq.length) :
    s.roundStep.microStepsLeft + 1 = s.microStepsLeft := by
  rw [microStepsLeft_round hround]
  by_cases hj : s.j = 63
  · have hlast : s.j.toNat = 63 := by rw [hj]; rfl
    rw [microStepsLeft_feed (if_pos hj), State.roundStep_jq]
    omega
  · have hlt : s.j.toNat < 63 := by bv_omega
    rw [microStepsLeft_round (if_neg hj), State.roundStep_jq, State.roundStep_j, if_neg hj,
      toNat_add_one_of_ne_63 hj]
    omega

theorem feedStep_microStepsLeft {s : State} {blk : Block} {rest : List Block} (hfeed : s.estate = .feed)
    (hjq : s.jq = blk :: rest) : (s.feedStep rest).microStepsLeft + 1 = s.microStepsLeft := by
  rw [microStepsLeft_feed hfeed, hjq, List.length_cons]
  by_cases hrest : rest = []
  · rw [microStepsLeft_idle (if_pos hrest), hrest, List.length_nil]
  · rw [microStepsLeft_load (if_neg hrest), State.feedStep_jq]
    omega

/-- While busy, the engine has a micro-step, and it is one less to the end of the job. -/
theorem microStep_progress {s : State} (h : s.Inv) (hbusy : s.estate ≠ .idle) :
    ∃ t, microStep s = .next t ∧ t.microStepsLeft + 1 = s.microStepsLeft := by
  obtain ⟨blk, rest, hjq⟩ := jq_eq_cons_of_busy h hbusy
  have hlen : s.jq.length = rest.length + 1 := by rw [hjq, List.length_cons]
  cases he : s.estate with
  | idle => exact absurd he hbusy
  | load =>
    refine ⟨_, microStep_load he hjq, ?_⟩
    rw [microStepsLeft_load he, microStepsLeft_round (State.loadStep_estate s blk), State.loadStep_jq,
      State.loadStep_j]
    have hzero : (0 : BitVec 6).toNat = 0 := rfl
    omega
  | round => exact ⟨_, microStep_round he, roundStep_microStepsLeft he (by omega)⟩
  | feed => exact ⟨_, microStep_feed he hjq, feedStep_microStepsLeft he hjq⟩

/-! ## The end -/

/-- Enough micro-steps end the job; those left over find the engine idle. -/
theorem engineTurn_ends {n : Nat} {s : State} (h : s.Inv) (hn : s.microStepsLeft ≤ n) :
    ∃ t, engineTurn n s = .next t ∧ t.estate = .idle := by
  induction n generalizing s with
  | zero =>
    refine ⟨s, rfl, by_contra fun hbusy => ?_⟩
    obtain ⟨t, -, hleft⟩ := microStep_progress h hbusy
    omega
  | succ n ih =>
    by_cases hidle : s.estate = .idle
    · exact ⟨s, engineTurn_idle _ hidle, hidle⟩
    · obtain ⟨t, hm, hleft⟩ := microStep_progress h hidle
      rw [engineTurn_succ n hm]
      exact ih (microStep_inv h hm) (by omega)

/-- The end of the job: the queue is empty, and `V` holds the result the job had from the start. -/
theorem engineTurn_result {n : Nat} {s : State} (h : s.Inv) (hn : s.microStepsLeft ≤ n) :
    ∃ t, engineTurn n s = .next t ∧ t.estate = .idle ∧ t.jq = [] ∧ t.v = s.eventual := by
  obtain ⟨t, ht, hidle⟩ := engineTurn_ends h hn
  have hjq := jq_eq_nil_of_idle (engineTurn_inv h ht) hidle
  exact ⟨t, ht, hidle, hjq, (eventual_of_jq_nil hjq).symm.trans (engineTurn_eventual h ht)⟩

theorem run_succ {s t : State} (n : Nat) (h : step s = .next t) :
    Host.Core.run core (n + 1) s = Host.Core.run core n t := by
  have hstep : core.step s = .next t := h
  simp only [Host.Core.run]
  rw [hstep]

theorem exists_microStep {s : State} (h : s.Inv) : ∃ t, microStep s = .next t := by
  by_cases hidle : s.estate = .idle
  · exact ⟨s, microStep_idle hidle⟩
  · obtain ⟨t, hm, -⟩ := microStep_progress h hidle
    exact ⟨t, hm⟩

/-- With no turn placed, a run of the machine is an engine turn (42_compression.md R162, log entry 1). -/
theorem run_eq_engineTurn (n : Nat) {s : State} (h : s.Inv) (hs : s.script = []) :
    Host.Core.run core n s = engineTurn n s := by
  induction n generalizing s with
  | zero => rfl
  | succ n ih =>
    obtain ⟨t, hm⟩ := exists_microStep h
    have hstep : step s = .next t := (step_of_no_turn (inconsistency_of_inv h) hs).trans hm
    have hscript : t.script = s.script := (congrArg State.script (eq_withEngine_of_microStep hm) :)
    rw [run_succ n hstep, engineTurn_succ n hm]
    exact ih (microStep_inv h hm) (hscript.trans hs)

end Sys2Proof.Machine
end

section
/-! The statements of the compression family (42_compression.md R150 to R168). -/

namespace Sys2Proof.Proofs

open Sys2Proof Sys2Proof.Machine

/-- Settles O48: enough micro-steps end with the result of the job in `V`, and an engine turn writes nothing else
the host sees. -/
theorem jobComputesTheCompressions : Obligations.JobComputesTheCompressions := by
  intro s n h hn
  refine ⟨?_, fun k u hu => ?_⟩
  · obtain ⟨t, ht, hidle, hjq, hv⟩ := engineTurn_result h hn
    have hbusy : t.busy = false := (busy_eq_false_iff t).2 hidle
    have hframe := eq_withEngine_of_engineTurn ht
    refine ⟨t, ht, hbusy, hv, ?_, (congrArg State.buf hframe :), hjq⟩
    calc t.hostView = { s.hostView with v := t.v, busy := t.busy } := congrArg State.hostView hframe
      _ = s.collapsedJob.hostView := by rw [hv, hbusy]; rfl
  · have hframe := eq_withEngine_of_engineTurn hu
    rw [hframe]
    exact ⟨rfl, rfl⟩

/-- Settles O49: with no turn placed the run is an engine turn, and the micro-steps left are at most those of two
blocks. -/
theorem everyJobEnds : Obligations.EveryJobEnds := by
  intro s h hs
  obtain ⟨t, ht, hidle, -, hv⟩ := engineTurn_result h le_rfl
  exact ⟨s.microStepsLeft, t, microStepsLeft_le h, (run_eq_engineTurn _ h hs).trans ht,
    (busy_eq_false_iff t).2 hidle, hv⟩

/-- Settles O47: every micro-step keeps to the engine and `V`, and an idle engine has none. -/
theorem engineTurnLeavesTheContextAlone : Obligations.EngineTurnLeavesTheContextAlone := by
  refine fun n s t h => ⟨eq_withEngine_of_engineTurn h, fun hidle => ?_⟩
  rw [engineTurn_idle n ((busy_eq_false_iff s).1 hidle)] at h
  exact (Host.Outcome.next.inj h).symm

/-- Settles O43: the schedule is the one of LOAD and ROUND, each value follows from the one before by
`nextTJ_roundConstant`, and the invariant says the register holds it. -/
theorem incrementalRoundConstant : Obligations.IncrementalRoundConstant := by
  refine ⟨fun s t hm he => ?_, fun s t hm he => ?_, by decide, fun tj hfirst hnext j hj => ?_, fun s h he => ?_⟩
  · obtain ⟨blk, rfl⟩ := eq_loadStep_of_microStep hm he
    rfl
  · rw [eq_roundStep_of_microStep hm he]
    rfl
  · rw [eq_roundConstant_of_schedule hfirst hnext hj, roundConstant_ofNat hj]
  · obtain ⟨blk, rest, hjq⟩ := jq_eq_cons_of_busy h (by simp [he])
    obtain ⟨-, -, -, hengine⟩ := h
    obtain ⟨-, -, htj, -⟩ := (hengine blk rest hjq).1 he
    exact htj

/-- Settles O9: a consistent state takes the turn that comes next; with none placed it is a micro-step, and that of
an idle engine changes nothing. -/
theorem stepGivesTheEngineItsTurn : Obligations.StepGivesTheEngineItsTurn := by
  refine fun s hc => ⟨fun n rest hs => step_of_engine hc hs, fun rest hs => ?_,
    fun hs _ => step_of_no_turn hc hs, fun hs hidle => ?_⟩
  · rw [step_of_engine hc hs, engineTurn_one]
  · rw [step_of_no_turn hc hs, microStep_idle ((busy_eq_false_iff s).1 hidle)]

/-- Settles O44: LOAD by the head of the queue, which a running engine always has. -/
theorem loadStepFillsTheEngine : Obligations.LoadStepFillsTheEngine := by
  refine ⟨fun s => microStep_load_empty, fun s h he hq => ?_, fun s blk rest => microStep_load⟩
  obtain ⟨blk, rest, hjq⟩ := jq_eq_cons_of_busy h (by simp [he])
  cases hq.symm.trans hjq

/-- Settles O45: the intermediates are those of `roundFn`, with `W[j]` and `W'[j]` in range. -/
theorem roundStepComputesOneRound : Obligations.RoundStepComputesOneRound := fun s he =>
  ⟨s.roundStep, microStep_round he, rfl, rfl, rfl, roundStep_j_toNat s, wAt s.w s.j, wpAt s.wp s.j, _, _, _, _, _, _,
    getElem?_eq_wAt s.w s.j, getElem?_eq_wpAt s.wp s.j, rfl, rfl, rfl, rfl, rfl, rfl, rfl⟩

/-- Settles O46: the other micro-steps leave `V` as it was; FEED ends the job exactly when no block is left. -/
theorem feedStepUpdatesTheChainingState : Obligations.FeedStepUpdatesTheChainingState := by
  refine ⟨fun s t => microStep_v, fun s blk rest he hjq =>
    ⟨s.feedStep rest, microStep_feed he hjq, rfl, rfl, ?_, fun hrest => if_neg hrest⟩⟩
  rw [busy_eq_false_iff, State.feedStep_estate]
  by_cases hrest : rest = [] <;> simp [hrest]

end Sys2Proof.Proofs
end

section
/-! Byte strings as blocks: the full blocks of a string and the bytes left over (43_stream_padding.md R183). -/

namespace Sys2Proof.Machine

/-- The bytes of a string after its full blocks: what a context that holds the string buffers (10_state.md
R25, `State.HoldsMessage`). -/
def partialBlock (m : List Byte) : List Byte := m.drop (64 * (m.length / 64))

theorem getElem_blockOfBytes (l : List Byte) {i : Nat} (h : i < 64) : (blockOfBytes l)[i] = l.getD i 0 :=
  Vector.getElem_ofFn h

theorem blockOfBytes_bytes {l : List Byte} (h : l.length = 64) : (blockOfBytes l).toList = l := by
  refine List.ext_getElem (by rw [Vector.length_toList, h]) fun i hi hl => ?_
  rw [Vector.getElem_toList, getElem_blockOfBytes, List.getD_eq_getElem _ _ hl]

theorem blockOfBytes_toList (blk : Block) : blockOfBytes blk.toList = blk :=
  Vector.toList_inj.1 (blockOfBytes_bytes blk.length_toList)

theorem fullBlocks_of_lt {m : List Byte} (h : m.length < 64) : fullBlocks m = [] := by
  rw [fullBlocks, Nat.div_eq_of_lt h, List.range_zero, List.map_nil]

theorem partialBlock_of_lt {m : List Byte} (h : m.length < 64) : partialBlock m = m := by
  rw [partialBlock, Nat.div_eq_of_lt h, Nat.mul_zero, List.drop_zero]

theorem length_fullBlocks (m : List Byte) : (fullBlocks m).length = m.length / 64 := by
  rw [fullBlocks, List.length_map, List.length_range]

theorem fullBlocks_block_append (blk : Block) (x : List Byte) :
    fullBlocks (blk.toList ++ x) = blk :: fullBlocks x := by
  have hlen : (blk.toList ++ x).length / 64 = x.length / 64 + 1 := by
    rw [List.length_append, blk.length_toList]
    omega
  have hhead : blockOfBytes (((blk.toList ++ x).drop (64 * 0)).take 64) = blk := by
    rw [Nat.mul_zero, List.drop_zero, List.take_left' blk.length_toList, blockOfBytes_toList]
  have htail (i : Nat) : (blk.toList ++ x).drop (64 * (i + 1)) = x.drop (64 * i) := by
    rw [Nat.mul_succ, Nat.add_comm, ← List.drop_drop, List.drop_left' blk.length_toList]
  rw [fullBlocks, hlen, List.range_succ_eq_map, List.map_cons, hhead, List.map_map, fullBlocks]
  simp only [Function.comp_def, Nat.succ_eq_add_one, htail]

theorem fullBlocks_flatMap_append (l : List Block) (x : List Byte) :
    fullBlocks (l.flatMap (fun b => b.toList) ++ x) = l ++ fullBlocks x := by
  induction l with
  | nil => rfl
  | cons blk l ih => rw [List.flatMap_cons, List.append_assoc, fullBlocks_block_append, ih, List.cons_append]

/-- A byte string is its full blocks and the bytes left over. -/
theorem fullBlocks_append_partialBlock (m : List Byte) :
    (fullBlocks m).flatMap (fun b => b.toList) ++ partialBlock m = m := by
  induction hn : m.length / 64 generalizing m with
  | zero =>
    have hlt : m.length < 64 := by omega
    rw [fullBlocks_of_lt hlt, partialBlock_of_lt hlt, List.flatMap_nil, List.nil_append]
  | succ n ih =>
    have hblk : (blockOfBytes (m.take 64)).toList = m.take 64 :=
      blockOfBytes_bytes (by rw [List.length_take]; omega)
    have hfull : fullBlocks m = blockOfBytes (m.take 64) :: fullBlocks (m.drop 64) := by
      rw [← fullBlocks_block_append, hblk, List.take_append_drop]
    have hleft : partialBlock m = partialBlock (m.drop 64) := by
      have hat : 64 * (m.length / 64) = 64 + 64 * ((m.length - 64) / 64) := by omega
      rw [partialBlock, partialBlock, List.drop_drop, List.length_drop, hat]
    have hrest := ih (m.drop 64) (by rw [List.length_drop]; omega)
    rw [hfull, hleft, List.flatMap_cons, hblk, List.append_assoc, hrest, List.take_append_drop]

/-- Only the bytes left over meet the bytes that follow. -/
theorem fullBlocks_append (m x : List Byte) :
    fullBlocks (m ++ x) = fullBlocks m ++ fullBlocks (partialBlock m ++ x) := by
  rw [← fullBlocks_flatMap_append, ← List.append_assoc, fullBlocks_append_partialBlock]

theorem partialBlock_append (m x : List Byte) : partialBlock (m ++ x) = partialBlock (partialBlock m ++ x) := by
  have hdrop : partialBlock m ++ x = (m ++ x).drop (64 * (m.length / 64)) :=
    (List.drop_append_of_le_length (by omega)).symm
  have hat : 64 * ((m.length + x.length) / 64) =
      64 * (m.length / 64) + 64 * ((m.length + x.length - 64 * (m.length / 64)) / 64) := by omega
  rw [hdrop, partialBlock, partialBlock, List.drop_drop, List.length_drop, List.length_append, ← hat]

end Sys2Proof.Machine
end

section
/-! Absorbing bytes as a stream: the buffered bytes and those that follow are cut into blocks
(43_stream_padding.md R183 to R185). -/

namespace Sys2Proof.Machine

theorem length_buffered (s : State) : s.buffered.length = s.bufcnt.toNat := by
  have := s.bufcnt.isLt
  rw [State.buffered, List.length_take, Vector.length_toList]
  omega

/-- The bytes up to one that is written at the count are the buffered ones and that one. -/
theorem take_set_bufcnt (s : State) (b : Byte) :
    (s.buf.set s.bufcnt.toNat b s.bufcnt.isLt).toList.take (s.bufcnt.toNat + 1) = s.buffered ++ [b] := by
  have hlt : s.bufcnt.toNat < s.buf.toList.length := by
    rw [Vector.length_toList]
    exact s.bufcnt.isLt
  rw [Vector.toList_set, List.take_add_one, List.take_set_of_le (Nat.le_refl _), List.getElem?_set_self hlt]
  rfl

theorem bufferByte_bufcnt_toNat {s : State} (h : s.bufcnt.toNat < 63) (b : Byte) :
    (s.bufferByte b).bufcnt.toNat = s.bufcnt.toNat + 1 :=
  toNat_add_one_of_ne_63 (by rintro h63; simp [h63] at h)

theorem bufferByte_buffered {s : State} (h : s.bufcnt.toNat < 63) (b : Byte) :
    (s.bufferByte b).buffered = s.buffered ++ [b] := by
  rw [State.buffered, bufferByte_bufcnt_toNat h]
  exact take_set_bufcnt s b

theorem completeBlock_bytes {s : State} (h : s.bufcnt.toNat = 63) (b : Byte) :
    (s.buf.set s.bufcnt.toNat b s.bufcnt.isLt).toList = s.buffered ++ [b] := by
  rw [← take_set_bufcnt, List.take_of_length_le (by rw [Vector.length_toList]; omega)]

/-- `s` with the buffer, the counters and the queue of `e`, and its engine started or not: what absorbing
changes (43_stream_padding.md R183). -/
def State.withStream (s e : State) : State :=
  { s with buf := e.buf, bufcnt := e.bufcnt, totalbits := e.totalbits, jq := e.jq, estate := e.estate }

theorem eq_withStream_of_sameOutsideBuffer {s t : State} (h : SameOutsideBuffer s t) : t = s.withStream t := by
  obtain ⟨hv, hphase, hfdig, hflen, hpadLen, hpad, herr, hj, hregs, htj, hw, hwp, hrdata, hdraws, hscript⟩ := h
  rw [State.withStream, ← hv, ← hphase, ← hfdig, ← hflen, ← hpadLen, ← hpad, ← herr, ← hj, ← hregs, ← htj,
    ← hw, ← hwp, ← hrdata, ← hdraws, ← hscript]

/-- `t` is `s` after it has absorbed `bs`: the full blocks of the buffered bytes and `bs` are queued, the bytes
left over are buffered, and the counters count both (43_stream_padding.md R183). -/
structure Absorbed (s : State) (bs : List Byte) (t : State) : Prop where
  buffered : t.buffered = partialBlock (s.buffered ++ bs)
  jq : t.jq = s.jq ++ fullBlocks (s.buffered ++ bs)
  bufcnt : t.bufcnt.toNat = (s.bufcnt.toNat + bs.length) % 64
  totalbits : t.totalbits.toNat = (s.totalbits.toNat + 512 * ((s.bufcnt.toNat + bs.length) / 64)) % 2 ^ 64
  estate : t.estate = if s.bufcnt.toNat + bs.length < 64 then s.estate else .load

theorem absorbed_nil (s : State) : Absorbed s [] s := by
  have hcnt := s.bufcnt.isLt
  have hlt : (s.buffered ++ []).length < 64 := by rwa [List.append_nil, length_buffered]
  refine ⟨?_, ?_, ?_, ?_, ?_⟩
  · rw [partialBlock_of_lt hlt, List.append_nil]
  · rw [fullBlocks_of_lt hlt, List.append_nil]
  · rw [List.length_nil]; omega
  · have := s.totalbits.isLt
    rw [List.length_nil]; omega
  · exact (if_pos hcnt).symm

theorem Absorbed.append {s t u : State} {as bs : List Byte} (h : Absorbed s as t) (h' : Absorbed t bs u) :
    Absorbed s (as ++ bs) u := by
  refine ⟨?_, ?_, ?_, ?_, ?_⟩
  · rw [h'.buffered, h.buffered, ← partialBlock_append, List.append_assoc]
  · rw [h'.jq, h.jq, h.buffered, List.append_assoc, ← fullBlocks_append, List.append_assoc]
  · rw [h'.bufcnt, h.bufcnt, List.length_append]
    omega
  · rw [h'.totalbits, h.totalbits, h.bufcnt, List.length_append]
    omega
  · rw [h'.estate, h.estate, h.bufcnt, List.length_append]
    by_cases hlast : (s.bufcnt.toNat + as.length) % 64 + bs.length < 64
    · rw [if_pos hlast]
      by_cases hfirst : s.bufcnt.toNat + as.length < 64
      · rw [if_pos hfirst, if_pos (by omega)]
      · rw [if_neg hfirst, if_neg (by omega)]
    · rw [if_neg hlast, if_neg (by omega)]

theorem absorbed_absorb (s : State) (b : Byte) : Absorbed s [b] (s.absorb b) := by
  have hlen : (s.buffered ++ [b]).length = s.bufcnt.toNat + 1 := by
    rw [List.length_append, length_buffered, List.length_singleton]
  have htotal := s.totalbits.isLt
  rcases absorb_cases s b with ⟨hlt, heq⟩ | ⟨hfull, heq⟩ <;> rw [heq]
  · refine ⟨?_, ?_, ?_, ?_, (if_pos (by rw [List.length_singleton]; omega)).symm⟩
    · rw [partialBlock_of_lt (by omega), bufferByte_buffered hlt]
    · rw [fullBlocks_of_lt (by omega), List.append_nil, State.bufferByte_jq]
    · rw [bufferByte_bufcnt_toNat hlt, List.length_singleton]; omega
    · rw [State.bufferByte_totalbits, List.length_singleton]; omega
  · have hbytes := completeBlock_bytes hfull b
    refine ⟨?_, ?_, ?_, ?_, (if_neg (by rw [List.length_singleton]; omega)).symm⟩
    · rw [partialBlock, List.drop_of_length_le (by omega)]
      rfl
    · rw [← hbytes, ← List.append_nil (Vector.toList _), fullBlocks_block_append]
      rfl
    · have hzero : (s.completeBlock b).bufcnt.toNat = 0 := rfl
      rw [hzero, List.length_singleton]; omega
    · rw [State.completeBlock_totalbits, BitVec.toNat_add, hfull, List.length_singleton]
      simp

theorem absorbed_absorbAll (bs : List Byte) (s : State) : Absorbed s bs (s.absorbAll bs) := by
  induction bs generalizing s with
  | nil => exact absorbed_nil s
  | cons b bs ih => exact (absorbed_absorb s b).append (ih (s.absorb b))

/-- Bytes that do not fill the buffer complete no block. -/
theorem Absorbed.of_lt {s t : State} {bs : List Byte} (h : Absorbed s bs t)
    (hlt : s.bufcnt.toNat + bs.length < 64) :
    t.buffered = s.buffered ++ bs ∧ t.jq = s.jq ∧ t.totalbits = s.totalbits ∧ t.estate = s.estate := by
  obtain ⟨hbuffered, hjq, -, htotal, hestate⟩ := h
  have hlen : (s.buffered ++ bs).length < 64 := by rwa [List.length_append, length_buffered]
  rw [partialBlock_of_lt hlen] at hbuffered
  rw [fullBlocks_of_lt hlen, List.append_nil] at hjq
  rw [if_pos hlt] at hestate
  have hbits := s.totalbits.isLt
  exact ⟨hbuffered, hjq, BitVec.eq_of_toNat_eq (by omega), hestate⟩

/-- Bytes that fill the buffer once complete one block. -/
theorem Absorbed.of_ge {s t : State} {bs : List Byte} (h : Absorbed s bs t)
    (hge : 64 ≤ s.bufcnt.toNat + bs.length) (hlt : s.bufcnt.toNat + bs.length < 128) :
    ∃ blk : Block, t.jq = s.jq ++ [blk] ∧ blk.toList ++ t.buffered = s.buffered ++ bs ∧
      t.totalbits.toNat = (s.totalbits.toNat + 512) % 2 ^ 64 ∧ t.estate = .load := by
  obtain ⟨hbuffered, hjq, -, htotal, hestate⟩ := h
  obtain ⟨blk, hblk⟩ : ∃ blk, fullBlocks (s.buffered ++ bs) = [blk] :=
    List.length_eq_one_iff.1 (by rw [length_fullBlocks, List.length_append, length_buffered]; omega)
  have hbytes := fullBlocks_append_partialBlock (s.buffered ++ bs)
  rw [hblk, List.flatMap_singleton, ← hbuffered] at hbytes
  rw [hblk] at hjq
  rw [if_neg (by omega)] at hestate
  exact ⟨blk, hjq, hbytes, by omega, hestate⟩

end Sys2Proof.Machine
end

section
/-! The message of a context under the host's operations and the engine (43_stream_padding.md R182 to R187,
60_exceptions.md R264). -/

namespace Sys2Proof.Machine

theorem dataByte_eq_setWidth (d : Word) : dataByte d = d.setWidth 8 := by
  apply BitVec.eq_of_toNat_eq
  simp [dataByte]

theorem exec_of_streams {i : Instr} {bs : List Byte} (hi : Instr.Streams i bs) (s : State) :
    exec i s = s.checkedWrite (s.dataChecks bs.length) (State.absorbAll bs) := by
  obtain ⟨d, ⟨rfl, rfl⟩ | ⟨rfl, rfl⟩⟩ := hi <;> rfl

/-- An accepted data write absorbs its bytes (43_stream_padding.md R184, R185). -/
theorem exec_of_streams_of_fits {i : Instr} {bs : List Byte} (hi : Instr.Streams i bs) {s : State}
    (hidle : s.busy = false) (hactive : s.phase = .active)
    (hlen : s.totalbits.toNat + 8 * (s.bufcnt.toNat + bs.length) ≤ 2 ^ 64 - 1) :
    exec i s = .next (s.absorbAll bs) := by
  have hpass : firstFailing (s.dataChecks bs.length) = none :=
    (dataChecks_pass_iff s bs.length).2
      ⟨(busy_eq_false_iff s).1 hidle, hactive, (lengthFits_iff s bs.length).2 hlen⟩
  rw [exec_of_streams hi, checkedWrite_of_pass hpass]

theorem streams_wrDinByte (d : Word) : Instr.Streams (.wrDinByte d) [d.setWidth 8] :=
  ⟨d, .inl ⟨rfl, by rw [dataByte_eq_setWidth]⟩⟩

theorem streams_wrDinWord (d : Word) : Instr.Streams (.wrDinWord d) (bytes32 d) :=
  ⟨d, .inr ⟨rfl, rfl⟩⟩

/-- The exact limit of a forged length in bytes (44_digest_forgery.md R216). -/
theorem forgeryFits_iff_flen_le (s : State) : s.forgeryFits = true ↔ s.flen.toNat ≤ 0x1fffffffffffffb7 := by
  rw [forgeryFits_iff, paddedBits]
  omega

/-! ## New contexts -/

theorem startContext_holds_nil {s : State} (hjq : s.jq = []) (v : Chain) {bits : BitVec 64} {seed : Nat}
    (hbits : bits.toNat = 8 * seed) : (s.startContext v bits).HoldsMessage v seed [] :=
  ⟨rfl, eventual_of_jq_nil hjq, List.take_zero, rfl, hbits⟩

theorem forgeContext_holds_nil {s : State} (hjq : s.jq = []) (hfits : s.forgeryFits = true) :
    s.forgeContext.HoldsMessage s.fdig (paddedBits s.flen.toNat / 8) [] := by
  have hbits : (BitVec.ofNat 64 (paddedBits s.flen.toNat)).toNat = 8 * (paddedBits s.flen.toNat / 8) := by
    rw [forgeryFits_iff] at hfits
    rw [BitVec.toNat_ofNat, paddedBits] at *
    omega
  exact startContext_holds_nil hjq s.fdig hbits

/-! ## Operations and the engine -/

section

variable {s : State} {h : Chain} {seed : Nat} {m : List Byte}

theorem absorbAll_holds (hm : s.HoldsMessage h seed m) {bs : List Byte} (hfits : s.lengthFits bs.length = true) :
    (s.absorbAll bs).HoldsMessage h seed (m ++ bs) := by
  obtain ⟨hactive, heventual, hbuffered, hcnt, htotal⟩ := hm
  obtain ⟨hbuffered', hjq', hcnt', htotal', -⟩ := absorbed_absorbAll bs s
  have hleft : s.buffered = partialBlock m := hbuffered
  rw [lengthFits_iff] at hfits
  refine ⟨by rw [absorbAll_phase, hactive], ?_, ?_, ?_, ?_⟩
  · calc (s.absorbAll bs).eventual = (fullBlocks (partialBlock m ++ bs)).foldl compress s.eventual := by
          rw [State.eventual, hjq', absorbAll_v, List.foldl_append, hleft, State.eventual]
      _ = (fullBlocks (m ++ bs)).foldl compress h := by rw [heventual, fullBlocks_append m, List.foldl_append]
  · rw [hbuffered', hleft, ← partialBlock_append]
    rfl
  · rw [hcnt', hcnt, List.length_append]
    omega
  · rw [htotal', htotal, hcnt, List.length_append]
    omega

/-- Nothing in the message a context holds looks at the chaining state and the engine but the result of the job. -/
theorem holds_of_engineTurn (hinv : s.Inv) (hm : s.HoldsMessage h seed m) {n : Nat} {t : State}
    (ht : engineTurn n s = .next t) : t.HoldsMessage h seed m := by
  obtain ⟨hactive, heventual, hstream⟩ := hm
  have heventual' : t.eventual = (fullBlocks m).foldl compress h := (engineTurn_eventual hinv ht).trans heventual
  rw [eq_withEngine_of_engineTurn ht] at heventual' ⊢
  exact ⟨hactive, heventual', hstream⟩

/-- An operation keeps the message, unless it is an accepted data write, which adds its bytes, or an accepted
command that creates or finalizes a context. -/
theorem holds_of_hostEffect (hm : s.HoldsMessage h seed m) {i : Instr} {t : State} (heff : HostEffect s i t) :
    t.HoldsMessage h seed m ∨ s.estate = .idle ∧
      ((∃ bs, Instr.Streams i bs ∧ s.lengthFits bs.length = true ∧ t.HoldsMessage h seed (m ++ bs)) ∨
        i = .wrCmdInit ∨ i = .wrCmdFinalize ∨ i = .wrCmdForgeInit ∧ s.forgeryFits = true) := by
  cases heff with
  | rejected =>
    rw [raiseError_eq]
    exact .inl hm
  | ignored | answered | answeredFree | errorCleared | wroteFlenLo | wroteFlenHi | wroteFdig => exact .inl hm
  | started hidle => exact .inr ⟨hidle, .inr (.inl rfl)⟩
  | finalized hidle => exact .inr ⟨hidle, .inr (.inr (.inl rfl))⟩
  | forged hidle hfits => exact .inr ⟨hidle, .inr (.inr (.inr ⟨rfl, hfits⟩))⟩
  | absorbed hi hidle _ hfits => exact .inr ⟨hidle, .inl ⟨_, hi, hfits, absorbAll_holds hm hfits⟩⟩

/-- A data write that is accepted extends the message by its bytes. -/
theorem exec_extends_of_streams (hinv : s.Inv) (hm : s.HoldsMessage h seed m) {i : Instr} {bs : List Byte}
    (hi : Instr.Streams i bs) (hidle : s.busy = false)
    (hlen : s.totalbits.toNat + 8 * (s.bufcnt.toNat + bs.length) ≤ 2 ^ 64 - 1) :
    ∃ t, exec i s = .next t ∧ t.Inv ∧ t.HoldsMessage h seed (m ++ bs) := by
  have ⟨hactive, _⟩ := hm
  have hexec := exec_of_streams_of_fits hi hidle hactive hlen
  exact ⟨_, hexec, hostEffect_inv hinv (hostEffect_of_exec hexec),
    absorbAll_holds hm ((lengthFits_iff s bs.length).2 hlen)⟩

/-- A data write that would overflow the length counter keeps the message. -/
theorem holds_of_streams_of_overflow (hm : s.HoldsMessage h seed m) {i : Instr} {bs : List Byte}
    (hi : Instr.Streams i bs) (hover : 2 ^ 64 - 1 < s.totalbits.toNat + 8 * (s.bufcnt.toNat + bs.length))
    {t : State} (ht : exec i s = .next t) : t.HoldsMessage h seed m := by
  have hfail : firstFailing (s.dataChecks bs.length) ≠ none := fun hok => by
    obtain ⟨-, -, hfits⟩ := (dataChecks_pass_iff s bs.length).1 hok
    rw [lengthFits_iff] at hfits
    omega
  rw [exec_of_streams hi] at ht
  obtain ⟨e, -, hw⟩ | ⟨hok, -⟩ := checkedWrite_cases s (s.dataChecks bs.length) (State.absorbAll bs)
  · obtain rfl := Host.Outcome.next.inj (hw.symm.trans ht)
    rw [raiseError_eq]
    exact hm
  · exact absurd hok hfail

/-- A step keeps the message or adds the bytes of one data write, unless it is a reset or runs a command that
creates or finalizes a context. -/
theorem holds_of_step (hinv : s.Inv) (hm : s.HoldsMessage h seed m) {t : State} (ht : step s = .next t) :
    (∃ bytes : List Byte, bytes.length ≤ 4 ∧ t.HoldsMessage h seed (m ++ bytes)) ∨
      (∃ rest, s.script = .reset :: rest) ∨
      ∃ a rest i, s.script = .host a :: rest ∧ decodeAccess a.bytes a.word = .ok i ∧
        (i = .wrCmdInit ∨ i = .wrCmdForgeInit ∨ i = .wrCmdFinalize) := by
  have hkept {t : State} (hk : t.HoldsMessage h seed m) :
      ∃ bytes : List Byte, bytes.length ≤ 4 ∧ t.HoldsMessage h seed (m ++ bytes) :=
    ⟨[], by decide, by rwa [List.append_nil]⟩
  obtain ⟨-, -, hx⟩ | ⟨rest, hs, -⟩ | ⟨n, rest, -, -, hx⟩ | ⟨a, rest, i, hs, -, hd, hx⟩ := step_cases ht
  · rw [← engineTurn_one] at hx
    exact .inl (hkept (holds_of_engineTurn hinv hm hx))
  · exact .inr (.inl ⟨rest, hs⟩)
  · have hinvRest : State.Inv { s with script := rest } := hinv
    have hrest : State.HoldsMessage { s with script := rest } h seed m := hm
    exact .inl (hkept (holds_of_engineTurn hinvRest hrest hx))
  · have hrest : State.HoldsMessage { s with script := rest } h seed m := hm
    obtain hk | ⟨-, ⟨bs, hi, -, hk⟩ | rfl | rfl | ⟨rfl, -⟩⟩ := holds_of_hostEffect hrest (hostEffect_of_exec hx)
    · exact .inl (hkept hk)
    · exact .inl ⟨bs, hi.length_le, hk⟩
    · exact .inr (.inr ⟨a, rest, _, hs, hd, .inl rfl⟩)
    · exact .inr (.inr ⟨a, rest, _, hs, hd, .inr (.inr rfl)⟩)
    · exact .inr (.inr ⟨a, rest, _, hs, hd, .inr (.inl rfl)⟩)

end

end Sys2Proof.Machine
end

section
/-! The padded blocks of `FINALIZE` and the hash of the message (43_stream_padding.md R188 to R191). -/

namespace Sys2Proof.Machine

theorem length_be64 (v : BitVec 64) : (be64 v).length = 8 := rfl

/-- One block, for at most 55 bytes (43_stream_padding.md R188, R189). -/
theorem finalBlocks_of_le {x : List Byte} (h : x.length ≤ 55) (bits : BitVec 64) :
    ∃ b1 : Block, finalBlocks x bits = [b1] ∧
      b1.toList = x ++ [0x80] ++ List.replicate (55 - x.length) 0 ++ be64 bits := by
  refine ⟨blockOfBytes (x ++ 0x80 :: (List.replicate (55 - x.length) 0 ++ be64 bits)), if_neg (by omega), ?_⟩
  rw [blockOfBytes_bytes]
  · simp
  · simp only [List.length_append, List.length_cons, List.length_replicate, length_be64]
    omega

/-- Two blocks, for 56 to 63 bytes (43_stream_padding.md R188, R189). -/
theorem finalBlocks_of_ge {x : List Byte} (h : 56 ≤ x.length) (hlt : x.length < 64) (bits : BitVec 64) :
    ∃ b1 b2 : Block, finalBlocks x bits = [b1, b2] ∧
      b1.toList = x ++ [0x80] ++ List.replicate (63 - x.length) 0 ∧
      b2.toList = List.replicate 56 0 ++ be64 bits := by
  refine ⟨blockOfBytes (x ++ 0x80 :: List.replicate (63 - x.length) 0),
    blockOfBytes (List.replicate 56 0 ++ be64 bits), if_pos (by omega), ?_, ?_⟩
  · rw [blockOfBytes_bytes]
    · simp
    · simp only [List.length_append, List.length_cons, List.length_replicate]
      omega
  · exact blockOfBytes_bytes (by rw [List.length_append, List.length_replicate, length_be64])

/-- The zero bytes of the padding fill the last block up to the length (44_digest_forgery.md R214). -/
theorem padLength_sub_nine (n : Nat) :
    padLength n - 9 = if n % 64 ≤ 55 then 55 - n % 64 else 63 - n % 64 + 56 := by
  unfold padLength paddedBits
  split <;> omega

/-- The bytes of the final blocks are the bytes left over and `pad(n)` (43_stream_padding.md R190). -/
theorem finalBlocks_bytes {x : List Byte} {n : Nat} (h : n % 64 = x.length) :
    (finalBlocks x (BitVec.ofNat 64 (8 * n))).flatMap (fun b => b.toList) = x ++ padBytes n := by
  have hlt : n % 64 < 64 := Nat.mod_lt n (by decide)
  rw [padBytes, padLength_sub_nine, h]
  by_cases hle : x.length ≤ 55
  · obtain ⟨b1, hblocks, hb1⟩ := finalBlocks_of_le hle (BitVec.ofNat 64 (8 * n))
    rw [hblocks, if_pos hle]
    simp [hb1]
  · have hge : 56 ≤ x.length := by omega
    obtain ⟨b1, b2, hblocks, hb1, hb2⟩ := finalBlocks_of_ge hge (by omega) (BitVec.ofNat 64 (8 * n))
    rw [hblocks, if_neg hle, List.replicate_add]
    simp [hb1, hb2]

theorem padded_length_mod (n : Nat) : 8 * (n + (padBytes n).length) % 512 = 0 := by
  rw [padBytes_length, padLength, paddedBits]
  omega

/-- The padding ends with the bit length (43_stream_padding.md R190). -/
theorem drop_padBytes (n : Nat) :
    (padBytes n).drop ((padBytes n).length - 8) = be64 (BitVec.ofNat 64 (8 * n)) := by
  have hsplit : padBytes n = (0x80 :: List.replicate (padLength n - 9) 0) ++ be64 (BitVec.ofNat 64 (8 * n)) := rfl
  rw [hsplit, List.length_append, length_be64, Nat.add_sub_cancel, List.drop_left]

theorem messageBits_toNat {s : State} (h : s.totalbits.toNat + 8 * s.bufcnt.toNat ≤ 2 ^ 64 - 1) :
    s.messageBits.toNat = s.totalbits.toNat + 8 * s.bufcnt.toNat := by
  have hcnt := s.bufcnt.isLt
  have hbytes : (8 * s.bufcnt.setWidth 64 : BitVec 64).toNat = 8 * s.bufcnt.toNat := by
    rw [BitVec.toNat_mul, BitVec.toNat_setWidth]
    change 8 * _ % _ = _
    omega
  rw [State.messageBits, BitVec.toNat_add, hbytes]
  omega

theorem messageBits_eq_ofNat {s : State} {n : Nat} (hn : 8 * n < 2 ^ 64)
    (h : s.totalbits.toNat + 8 * s.bufcnt.toNat = 8 * n) : s.messageBits = BitVec.ofNat 64 (8 * n) := by
  apply BitVec.eq_of_toNat_eq
  rw [messageBits_toNat (by omega), h, BitVec.toNat_ofNat, Nat.mod_eq_of_lt hn]

/-- An accepted `FINALIZE` (43_stream_padding.md R188). -/
theorem exec_wrCmdFinalize_of_active {s : State} (hidle : s.busy = false) (hactive : s.phase = .active) :
    exec .wrCmdFinalize s = .next s.queueFinal :=
  checkedWrite_of_pass (by rw [hidle, hactive]; rfl)

/-- In an active context the counters stay below `2^64` bits (10_state.md R28). -/
theorem totalbits_add_bufcnt_le {s : State} (h : s.Inv) (hactive : s.phase = .active) :
    s.totalbits.toNat % 512 = 0 ∧ s.totalbits.toNat + 8 * s.bufcnt.toNat ≤ 2 ^ 64 - 8 := by
  obtain ⟨-, ⟨-, -, -, -, hcount, -⟩, -⟩ := h
  exact hcount hactive

/-- What the context buffers and `FINALIZE` appends is the rest of the padded message (43_stream_padding.md
R190). -/
theorem finalBlocks_of_counters {s : State} {n : Nat} (hn : 8 * n < 2 ^ 64)
    (h : s.totalbits.toNat + 8 * s.bufcnt.toNat = 8 * n) (hmul : s.totalbits.toNat % 512 = 0) :
    (finalBlocks s.buffered s.messageBits).flatMap (fun b => b.toList) = s.buffered ++ padBytes n := by
  have hcnt := s.bufcnt.isLt
  rw [messageBits_eq_ofNat hn h]
  exact finalBlocks_bytes (by rw [length_buffered]; omega)

section

variable {s : State} {h : Chain} {seed : Nat} {m : List Byte}

theorem counters_of_holds (hm : s.HoldsMessage h seed m) :
    s.totalbits.toNat + 8 * s.bufcnt.toNat = 8 * (seed + m.length) := by
  obtain ⟨-, -, -, hcnt, htotal⟩ := hm
  omega

/-- The job of `FINALIZE` ends with the hash of the message (43_stream_padding.md R190, 42_compression.md R154). -/
theorem queueFinal_eventual (hinv : s.Inv) (hm : s.HoldsMessage h seed m) :
    s.queueFinal.eventual = hashFrom h seed m := by
  have ⟨hactive, heventual, hbuffered, _⟩ := hm
  have hleft : s.buffered = partialBlock m := hbuffered
  have hcounters := counters_of_holds hm
  obtain ⟨hmul, hlen⟩ := totalbits_add_bufcnt_le hinv hactive
  have hblocks : finalBlocks s.buffered s.messageBits = fullBlocks (partialBlock m ++ padBytes (seed + m.length)) := by
    rw [← hleft, ← finalBlocks_of_counters (by omega) hcounters hmul,
      ← List.append_nil (List.flatMap _ _), fullBlocks_flatMap_append]
    exact (List.append_nil _).symm
  calc s.queueFinal.eventual
      = (finalBlocks s.buffered s.messageBits).foldl compress s.eventual := List.foldl_append
    _ = hashFrom h seed m := by rw [heventual, hblocks, hashFrom, fullBlocks_append m, List.foldl_append]

end

end Sys2Proof.Machine
end

section
/-! The statements of the stream and padding family (43_stream_padding.md R180 to R192). -/

namespace Sys2Proof.Proofs

open Sys2Proof Sys2Proof.Machine

/-- Settles O30: the only check of `INIT` is the busy rule, and of the command words only the first is `INIT`. -/
theorem initStartsAFreshContext : Obligations.InitStartsAFreshContext := by
  refine ⟨by decide, fun data hd => ?_, fun s => ⟨fun hbusy => ?_, fun hidle => ?_⟩⟩
  · obtain ⟨-, -, -, hdata⟩ := decode_eq_ok_iff.1 hd
    exact (busData_busWord .wr 0 data).symm.trans (hdata rfl)
  · rw [← raiseError_eq]
    exact checkedWrite_of_busy hbusy _ _
  · exact checkedWrite_of_pass (by rw [hidle]; rfl)

/-- Settles O33: the first failing check of a data write is the one whose error it raises. -/
theorem dataWriteChecksInOrder : Obligations.DataWriteChecksInOrder := by
  intro s d i n hi
  obtain ⟨bs, hbs, rfl⟩ : ∃ bs, Instr.Streams i bs ∧ n = bs.length := by
    obtain ⟨rfl, rfl⟩ | ⟨rfl, rfl⟩ := hi
    · exact ⟨_, streams_wrDinByte d, rfl⟩
    · exact ⟨_, streams_wrDinWord d, rfl⟩
  rw [exec_of_streams hbs]
  refine ⟨fun hbusy => ?_, fun hidle hphase => ?_, fun hidle hactive hover => ?_⟩ <;> rw [← raiseError_eq]
  · exact checkedWrite_of_busy hbusy _ _
  · have hcheck : (s.phase != .active) = true := bne_iff_ne.2 hphase
    exact checkedWrite_of_fail (by rw [State.dataChecks, hidle, hcheck]; rfl)
  · have hlong : s.lengthFits bs.length = false := by
      rw [← Bool.not_eq_true, lengthFits_iff]
      omega
    exact checkedWrite_of_fail (by rw [State.dataChecks, hidle, hactive, hlong]; rfl)

/-- Settles O34: one byte is absorbed, which buffers it below 63 and completes the block at 63. -/
theorem dinByteAbsorbsOneByte : Obligations.DinByteAbsorbsOneByte := by
  intro s d hidle hactive hlen
  refine ⟨s.absorb (d.setWidth 8), exec_of_streams_of_fits (streams_wrDinByte d) hidle hactive hlen, ?_⟩
  obtain ⟨hlt, heq⟩ | ⟨hfull, heq⟩ := absorb_cases s (d.setWidth 8) <;> rw [heq]
  · refine ⟨rfl, fun _ => ⟨rfl, ?_⟩, fun hfull => absurd hfull (by omega)⟩
    exact bufferByte_bufcnt_toNat hlt _
  · refine ⟨rfl, fun hlt => absurd hlt (by omega), fun _ => ⟨rfl, ?_⟩⟩
    exact BitVec.toNat_add_of_lt (by change _ + 512 < _; omega)

/-- Settles O35: four bytes are absorbed; with fewer than 60 buffered they complete no block, otherwise one. -/
theorem dinWordAbsorbsFourBytes : Obligations.DinWordAbsorbsFourBytes := by
  intro s d hidle hactive hlen
  have habsorbed := absorbed_absorbAll (bytes32 d) s
  have hsame := eq_withStream_of_sameOutsideBuffer (absorbAll_frame (bytes32 d) s)
  have hfour : (bytes32 d).length = 4 := rfl
  have hcnt := s.bufcnt.isLt
  refine ⟨s.absorbAll (bytes32 d), exec_of_streams_of_fits (streams_wrDinWord d) hidle hactive hlen,
    habsorbed.bufcnt, fun hlt => ?_, fun hge => ?_⟩
  · obtain ⟨hbuffered, hjq, htotal, hestate⟩ := habsorbed.of_lt (by omega)
    rw [State.withStream, hjq, htotal, hestate] at hsame
    exact ⟨hsame, hbuffered⟩
  · obtain ⟨blk, hjq, hbytes, htotal, hestate⟩ := habsorbed.of_ge (by omega) (by omega)
    rw [State.withStream, hjq, hestate] at hsame
    exact ⟨blk, hsame, by omega, hbytes⟩

/-- Settles O36: the blocks are `finalBlocks` of the buffered bytes, one or two by their number. -/
theorem finalizeQueuesThePaddedBlocks : Obligations.FinalizeQueuesThePaddedBlocks := by
  refine ⟨by decide, fun s => ⟨fun hinv hactive => ?_, fun hbusy => ?_, fun hidle hphase => ?_,
    fun hidle hactive hlen => ?_⟩⟩
  · obtain ⟨-, hle⟩ := totalbits_add_bufcnt_le hinv hactive
    omega
  · rw [← raiseError_eq]
    exact checkedWrite_of_busy hbusy _ _
  · have hcheck : (s.phase != .active) = true := bne_iff_ne.2 hphase
    rw [← raiseError_eq]
    exact checkedWrite_of_fail (by rw [hidle, hcheck]; rfl)
  · refine ⟨s.queueFinal, finalBlocks s.buffered s.messageBits, exec_wrCmdFinalize_of_active hidle hactive, rfl,
      messageBits_toNat hlen, ?_, ?_⟩ <;> rw [← length_buffered]
    · exact fun hle => finalBlocks_of_le hle s.messageBits
    · exact fun hge => finalBlocks_of_ge hge (by rw [length_buffered]; exact s.bufcnt.isLt) s.messageBits

/-- Settles O37: the counters fix the number of bytes, and with it the zero bytes and the length field. -/
theorem finalizeAppendsThePadding : Obligations.FinalizeAppendsThePadding := by
  intro s n hidle hactive hn hcounters hmul
  have hbits := messageBits_eq_ofNat hn hcounters
  refine ⟨s.queueFinal, _, exec_wrCmdFinalize_of_active hidle hactive, rfl, finalBlocks_of_counters hn hcounters hmul,
    padded_length_mod n, ?_, ?_⟩
  · rw [drop_padBytes, ← hbits]
    rfl
  · rw [← hcounters]
    exact messageBits_toNat (by omega)

/-- Settles O55: a host operation, an engine turn and a step each keep the message or add the bytes of one data
write, and all keep the invariant. -/
theorem dataWritesExtendTheMessage : Obligations.DataWritesExtendTheMessage := by
  intro s h seed m hinv hm
  have hexec {i : Instr} {t : State} (ht : exec i s = .next t) : t.Inv :=
    hostEffect_inv hinv (hostEffect_of_exec ht)
  refine ⟨fun d hidle hlen => exec_extends_of_streams hinv hm (streams_wrDinByte d) hidle hlen,
    fun d hidle hlen => exec_extends_of_streams hinv hm (streams_wrDinWord d) hidle hlen,
    fun i t hinit hforge hfinal hdata ht => ⟨hexec ht, ?_⟩, fun i t hbusy ht => ⟨hexec ht, ?_⟩,
    fun d t hover ht => ⟨hexec ht, holds_of_streams_of_overflow hm (streams_wrDinByte d) hover ht⟩,
    fun d t hover ht => ⟨hexec ht, holds_of_streams_of_overflow hm (streams_wrDinWord d) hover ht⟩,
    fun t hlarge ht => ⟨hexec ht, ?_⟩,
    fun n t ht => ⟨engineTurn_inv hinv ht, holds_of_engineTurn hinv hm ht⟩,
    fun t ht => ⟨step_inv hinv ht, holds_of_step hinv hm ht⟩⟩
  · obtain hk | ⟨-, ⟨bs, hi, -⟩ | rfl | rfl | ⟨rfl, -⟩⟩ := holds_of_hostEffect hm (hostEffect_of_exec ht)
    · exact hk
    · obtain ⟨d, rfl | rfl⟩ := hi.is_data_write
      · exact absurd rfl (hdata d).1
      · exact absurd rfl (hdata d).2
    · exact absurd rfl hinit
    · exact absurd rfl hfinal
    · exact absurd rfl hforge
  · obtain hk | ⟨hidle, -⟩ := holds_of_hostEffect hm (hostEffect_of_exec ht)
    · exact hk
    · exact absurd hidle ((busy_eq_true_iff s).1 hbusy)
  · obtain hk | ⟨-, ⟨bs, hi, -⟩ | hi | hi | ⟨-, hfits⟩⟩ := holds_of_hostEffect hm (hostEffect_of_exec ht)
    · exact hk
    · obtain ⟨d, hi | hi⟩ := hi.is_data_write <;> cases hi
    · cases hi
    · cases hi
    · rw [forgeryFits_iff_flen_le] at hfits
      omega

/-- Settles O56: an idle core has no block queued, so a new context holds nothing but its starting value. -/
theorem newContextHoldsTheEmptyMessage : Obligations.NewContextHoldsTheEmptyMessage := by
  intro s hinv hidle
  have hjq := jq_eq_nil_of_idle hinv ((busy_eq_false_iff s).1 hidle)
  refine ⟨⟨_, checkedWrite_of_pass (by rw [hidle]; rfl), startContext_holds_nil hjq iv rfl⟩, fun hlen => ?_⟩
  have hfits := (forgeryFits_iff_flen_le s).2 hlen
  exact ⟨_, checkedWrite_of_pass (by rw [hidle, hfits]; rfl), forgeContext_holds_nil hjq hfits⟩

/-- Settles O57: the job `FINALIZE` starts has the hash of the message for its result, and its engine turns change
`V` and the engine only. -/
theorem finalizeGivesTheHashOfTheMessage : Obligations.FinalizeGivesTheHashOfTheMessage := by
  intro s h seed m hinv hidle hm
  have ⟨hactive, _⟩ := hm
  have hinv' := queueFinal_inv hinv ((busy_eq_false_iff s).1 hidle)
  obtain ⟨-, hlen⟩ := totalbits_add_bufcnt_le hinv hactive
  refine ⟨s.queueFinal, exec_wrCmdFinalize_of_active hidle hactive, rfl, fun n hn => ?_⟩
  obtain ⟨u, hu, hend, -, hv⟩ := engineTurn_result hinv' hn
  refine ⟨u, hu, (busy_eq_false_iff u).2 hend, hv.trans (queueFinal_eventual hinv hm), engineTurn_phase hu, ?_⟩
  have htotal : u.totalbits = s.messageBits := (congrArg State.totalbits (eq_withEngine_of_engineTurn hu) :)
  rw [htotal, messageBits_toNat (by omega), counters_of_holds hm]

end Sys2Proof.Proofs
end

section
/-! The padding arithmetic and the padding store (44_digest_forgery.md R214, R217). -/

namespace Sys2Proof.Machine

/-- `paddedBits` is the least multiple of 512 that leaves room for the mark bit and the length field
(44_digest_forgery.md R214). -/
theorem paddedBits_le_of_dvd {n m : Nat} (hdvd : 512 ∣ m) (hroom : 8 * n + 65 ≤ m) : paddedBits n ≤ m := by
  obtain ⟨k, rfl⟩ := hdvd
  have hk : (8 * n + 65 + 511) / 512 ≤ k := by omega
  exact Nat.mul_le_mul_left 512 hk

theorem le_paddedBits (n : Nat) : 8 * n + 65 ≤ paddedBits n := by
  unfold paddedBits
  omega

theorem add_padLength (n : Nat) : 8 * (n + padLength n) = paddedBits n := by
  unfold padLength paddedBits
  omega

theorem padLength_eq (n : Nat) : padLength n = if n % 64 < 56 then 64 - n % 64 else 128 - n % 64 := by
  unfold padLength paddedBits
  split <;> omega

theorem forgeContext_totalbits_toNat {s : State} (hfits : s.forgeryFits = true) :
    s.forgeContext.totalbits.toNat = paddedBits s.flen.toNat := by
  rw [forgeryFits_iff] at hfits
  exact Nat.mod_eq_of_lt (by omega)

theorem forgeContext_padLen_toNat (s : State) : s.forgeContext.padLen.toNat = padLength s.flen.toNat := by
  have hbounds := padLength_bounds s.flen.toNat
  exact Nat.mod_eq_of_lt (by omega)

/-- The bytes of the padding store: the padding, then zeros up to 128 (44_digest_forgery.md R215). -/
theorem unwords_padStore (n : Nat) :
    unwords (padStore n).toList = padBytes n ++ List.replicate (128 - padLength n) 0 := by
  have hlen : (padBytes n ++ List.replicate (128 - padLength n) 0).length = 128 := by
    have hbounds := padLength_bounds n
    rw [List.length_append, padBytes_length, List.length_replicate]
    omega
  have hwords : (padStore n).toList = words (padBytes n ++ List.replicate (128 - padLength n) 0) := by
    refine List.ext_getElem (by rw [Vector.length_toList, length_words, hlen]) fun k hk hk' => ?_
    rw [← List.getD_eq_getElem _ 0 hk', Vector.getElem_toList]
    exact Vector.getElem_ofFn _
  rw [hwords, unwords_words (by rw [hlen])]

end Sys2Proof.Machine
end

section
/-! The registers of the forgery family: what a read finds after a write, and the bytes of the digest words
(44_digest_forgery.md R210 to R212, R218 to R220). -/

namespace Sys2Proof.Machine

/-! ## Reads while not busy -/

theorem exec_rdDigest_of_idle {s : State} (h : s.busy = false) (i : BitVec 3) :
    exec (.rdDigest i) s = .next { s with rdata := bankWord s.v i } :=
  hostRead_of_idle h _

theorem exec_rdFdig_of_idle {s : State} (h : s.busy = false) (i : BitVec 3) :
    exec (.rdFdig i) s = .next { s with rdata := bankWord s.fdig i } :=
  hostRead_of_idle h _

theorem exec_rdFlenLo_of_idle {s : State} (h : s.busy = false) :
    exec .rdFlenLo s = .next { s with rdata := lowHalf s.flen } :=
  hostRead_of_idle h _

theorem exec_rdFlenHi_of_idle {s : State} (h : s.busy = false) :
    exec .rdFlenHi s = .next { s with rdata := highHalf s.flen } :=
  hostRead_of_idle h _

theorem exec_rdPadLen_of_idle {s : State} (h : s.busy = false) :
    exec .rdPadLen s = .next { s with rdata := s.padLenWord } :=
  hostRead_of_idle h _

theorem exec_rdPad_of_idle {s : State} (h : s.busy = false) (k : BitVec 5) :
    exec (.rdPad k) s = .next { s with rdata := s.padWord k } :=
  hostRead_of_idle h _

/-! ## Banks of eight words -/

theorem getElem?_eq_bankWord (bank : Chain) (i : BitVec 3) : bank[i.toNat]? = some (bankWord bank i) :=
  Vector.getElem?_eq_getElem i.isLt

theorem bankWord_writeFdig_self (s : State) (i : BitVec 3) (d : Word) : bankWord (s.writeFdig i d).fdig i = d :=
  Vector.getElem_set_self i.isLt

theorem bankWord_writeFdig_of_ne (s : State) {i k : BitVec 3} (h : k ≠ i) (d : Word) :
    bankWord (s.writeFdig i d).fdig k = bankWord s.fdig k :=
  Vector.getElem_set_ne i.isLt k.isLt fun heq => h (BitVec.eq_of_toNat_eq heq.symm)

/-- The four bytes from `4 * i` are those of the word at index `i` (40_primitives.md R130). -/
theorem take_drop_unwords {w : List Word} {i : Nat} (h : i < w.length) :
    ((unwords w).drop (4 * i)).take 4 = bytes32 w[i] := by
  induction w generalizing i with
  | nil => exact absurd h (Nat.not_lt_zero i)
  | cons x rest ih =>
    cases i with
    | zero => rfl
    | succ k => exact ih (Nat.lt_of_succ_lt_succ h)

theorem digest_bytes (v : Chain) (i : BitVec 3) : ((digest v).drop (4 * i.toNat)).take 4 = bytes32 (bankWord v i) :=
  take_drop_unwords (w := v.toList) (by rw [Vector.length_toList]; exact i.isLt)

/-! ## Halves of a 64-bit register -/

theorem toNat_append_eq_add {n k : Nat} (x : BitVec n) (y : BitVec k) :
    (x ++ y).toNat = x.toNat * 2 ^ k + y.toNat := by
  rw [BitVec.toNat_append, ← Nat.shiftLeft_add_eq_or_of_lt y.isLt, Nat.shiftLeft_eq]

theorem lowHalf_toNat (x : BitVec 64) : (lowHalf x).toNat = x.toNat % 2 ^ 32 :=
  congrArg BitVec.toNat (lowHalf_eq_ofNat x)

theorem highHalf_toNat (x : BitVec 64) : (highHalf x).toNat = x.toNat / 2 ^ 32 := by
  have hx := x.isLt
  rw [highHalf_eq_ofNat, BitVec.toNat_ofNat]
  omega

theorem withLowHalf_toNat (x : BitVec 64) (d : Word) :
    (withLowHalf x d).toNat = x.toNat / 2 ^ 32 * 2 ^ 32 + d.toNat := by
  rw [withLowHalf, toNat_append_eq_add, highHalf_toNat]

theorem withHighHalf_toNat (x : BitVec 64) (d : Word) :
    (withHighHalf x d).toNat = d.toNat * 2 ^ 32 + x.toNat % 2 ^ 32 := by
  rw [withHighHalf, toNat_append_eq_add, lowHalf_toNat]

theorem lowHalf_withLowHalf (x : BitVec 64) (d : Word) : lowHalf (withLowHalf x d) = d :=
  BitVec.extractLsb'_append_eq_right

theorem highHalf_withHighHalf (x : BitVec 64) (d : Word) : highHalf (withHighHalf x d) = d :=
  BitVec.extractLsb'_append_eq_left

/-! ## The padding outputs -/

theorem padLenWord_toNat (s : State) : s.padLenWord.toNat = s.padLen.toNat := by
  rw [State.padLenWord, toNat_append_eq_add, BitVec.toNat_zero, Nat.zero_mul, Nat.zero_add]

theorem padWord_of_lt (s : State) {k : BitVec 5} (h : k.toNat < 18) : s.pad[k.toNat]? = some (s.padWord k) := by
  rw [State.padWord, if_pos h, Vector.getElem?_eq_getElem]

theorem padWord_of_ge (s : State) {k : BitVec 5} (h : 18 ≤ k.toNat) : s.padWord k = 0 :=
  if_neg (Nat.not_lt.2 h)

/-- In a state with the padding invariant the hardwired words are also those of the store (30_encoding.md R97,
10_state.md R33). -/
theorem padWord_of_padInv {s : State} (h : s.PadInv) (k : BitVec 5) : s.pad[k.toNat]? = some (s.padWord k) := by
  obtain ⟨-, hzero⟩ := h
  by_cases hk : k.toNat < 18
  · exact padWord_of_lt s hk
  · have hge := Nat.not_lt.1 hk
    rw [padWord_of_ge s hge, Vector.getElem?_eq_getElem k.isLt]
    exact congrArg some (hzero ⟨k.toNat, k.isLt⟩ hge)

end Sys2Proof.Machine
end

section
/-! Length extension: the hash of a message is the chaining value after its padded bytes (44_digest_forgery.md
R221, R222). -/

namespace Sys2Proof.Machine

theorem partialBlock_of_dvd {m : List Byte} (h : 64 ∣ m.length) : partialBlock m = [] := by
  rw [partialBlock, Nat.mul_div_cancel' h, List.drop_length]

/-- Whole blocks followed by more bytes are cut separately. -/
theorem fullBlocks_append_of_dvd {m : List Byte} (h : 64 ∣ m.length) (x : List Byte) :
    fullBlocks (m ++ x) = fullBlocks m ++ fullBlocks x := by
  rw [fullBlocks_append, partialBlock_of_dvd h, List.nil_append]

theorem padded_length (m : List Byte) : (m ++ padBytes m.length).length = paddedBits m.length / 8 := by
  have hpadded := add_padLength m.length
  rw [List.length_append, padBytes_length]
  omega

theorem padded_length_dvd (m : List Byte) : 64 ∣ (m ++ padBytes m.length).length := by
  rw [padded_length, paddedBits]
  omega

/-- Continuing the digest of `m` after its padded length with `x` gives the digest of `m`, its padding and `x`:
both compress the blocks of `m ‖ pad(|m|)` first, and the same blocks after them (44_digest_forgery.md R222). -/
theorem hashFrom_hashWords (m x : List Byte) :
    hashFrom (hashWords m) (paddedBits m.length / 8) x = hashWords (m ++ padBytes m.length ++ x) := by
  have hleak : hashWords m = (fullBlocks (m ++ padBytes m.length)).foldl compress iv := by
    rw [hashWords, hashFrom, Nat.zero_add]
  have hlength : 0 + (m ++ padBytes m.length ++ x).length = paddedBits m.length / 8 + x.length := by
    rw [Nat.zero_add, List.length_append, padded_length]
  rw [hashFrom, hleak, hashWords, hashFrom, hlength, List.append_assoc _ x,
    fullBlocks_append_of_dvd (padded_length_dvd m), List.foldl_append]

end Sys2Proof.Machine
end

section
/-! The statements of the digest and forgery family (44_digest_forgery.md R210 to R222). -/

namespace Sys2Proof.Proofs

open Sys2Proof Sys2Proof.Machine

/-- Settles O32: each fact is one of the exact integer arithmetic of `paddedBits`. -/
theorem paddingArithmetic : Obligations.PaddingArithmetic := by
  intro n
  obtain ⟨hmin, hmax⟩ := padLength_bounds n
  exact ⟨⟨⟨_, rfl⟩, le_paddedBits n, fun _ => paddedBits_le_of_dvd⟩, add_padLength n, padLength_eq n, hmin,
    hmax, padBytes_length n, rfl⟩

/-- Settles O31: the checks are the busy rule and the exact limit on `FLEN`, under which no counter wraps. -/
theorem forgeInitStartsAForgedContext : Obligations.ForgeInitStartsAForgedContext := by
  refine ⟨by decide, fun s => ⟨(forgeryFits_iff s).symm.trans (forgeryFits_iff_flen_le s), fun hbusy => ?_,
    fun hidle hover => ?_, fun hidle hlen => ?_⟩⟩
  · rw [← raiseError_eq]
    exact checkedWrite_of_busy hbusy _ _
  · have hlong : s.forgeryFits = false := by
      rw [← Bool.not_eq_true, forgeryFits_iff_flen_le]
      omega
    rw [← raiseError_eq]
    exact checkedWrite_of_fail (by rw [hidle, hlong]; rfl)
  · have hfits := (forgeryFits_iff_flen_le s).2 hlen
    have htotal := forgeContext_totalbits_toNat hfits
    refine ⟨s.forgeContext, checkedWrite_of_pass (by rw [hidle, hfits]; rfl), rfl, ?_, ?_,
      unwords_padStore s.flen.toNat⟩
    · rw [htotal, paddedBits]
      omega
    · rw [htotal]
      exact forgeContext_padLen_toNat s

/-- Settles O58: the functions by the blocks they compress; of the machine, each context ends with the hash and
the length of the message it holds, and the two messages have the same hash and length. -/
theorem forgedDigestIsGenuine : Obligations.ForgedDigestIsGenuine := by
  intro m x
  refine ⟨hashFrom_hashWords m x, fun s hinv hidle hfdig hflen hlen => ?_,
    fun s d hinv hidle hs hinv' hidle' hd => ?_⟩
  · obtain ⟨-, hforge⟩ := newContextHoldsTheEmptyMessage s hinv hidle
    rw [← hflen, ← hfdig]
    exact hforge (by rwa [hflen])
  · obtain ⟨t, ht, -, hjob⟩ := finalizeGivesTheHashOfTheMessage s _ _ x hinv hidle hs
    obtain ⟨e, he, -, hjob'⟩ := finalizeGivesTheHashOfTheMessage d _ _ _ hinv' hidle' hd
    refine ⟨t, e, ht, he, fun n hn hn' => ?_⟩
    obtain ⟨u, hu, hend, hv, -, htotal⟩ := hjob n hn
    obtain ⟨f, hf, hend', hv', -, htotal'⟩ := hjob' n hn'
    rw [hashFrom_hashWords] at hv
    refine ⟨u, f, hu, hf, hend, hend', hv.trans hv'.symm, hv, BitVec.eq_of_toNat_eq ?_⟩
    rw [htotal, htotal', Nat.zero_add, List.length_append, padded_length]

/-- Settles O26: the word read is the one whose four bytes the digest has at `4 * i`. -/
theorem digestReadReturnsItsFourBytes : Obligations.DigestReadReturnsItsFourBytes := fun s i hidle =>
  ⟨_, exec_rdDigest_of_idle hidle i, getElem?_eq_bankWord s.v i, digest_bytes s.v i⟩

/-- Settles O27: a write sets one word of the bank and leaves the other seven. -/
theorem fdigReadsBackWhatWasWritten : Obligations.FdigReadsBackWhatWasWritten := by
  intro s i d hidle
  have hidle' : (s.writeFdig i d).busy = false := hidle
  refine ⟨⟨_, exec_rdFdig_of_idle hidle i, getElem?_eq_bankWord s.fdig i⟩, s.writeFdig i d,
    checkedWrite_of_pass (by rw [hidle]; rfl), rfl, ?_, fun k hk => ?_⟩ <;> rw [exec_rdFdig_of_idle hidle']
  · rw [bankWord_writeFdig_self]
  · rw [bankWord_writeFdig_of_ne s hk]

/-- Settles O28: a write joins the written half to the other one. -/
theorem flenReadsBackWhatWasWritten : Obligations.FlenReadsBackWhatWasWritten := by
  intro s d hidle
  have hidle' (x : BitVec 64) : (s.writeFlen x).busy = false := hidle
  refine ⟨⟨s.writeFlen (withLowHalf s.flen d), checkedWrite_of_pass (by rw [hidle]; rfl), rfl,
      withLowHalf_toNat s.flen d, ?_⟩,
    ⟨s.writeFlen (withHighHalf s.flen d), checkedWrite_of_pass (by rw [hidle]; rfl), rfl,
      withHighHalf_toNat s.flen d, ?_⟩⟩
  · rw [exec_rdFlenLo_of_idle (hidle' _), State.writeFlen_flen, lowHalf_withLowHalf]
  · rw [exec_rdFlenHi_of_idle (hidle' _), State.writeFlen_flen, highHalf_withHighHalf]

/-- Settles O29: the words read, `PAD18` to `PAD31` being 0 whatever the store holds. -/
theorem paddingReadsReturnTheStore : Obligations.PaddingReadsReturnTheStore := fun s k hidle =>
  ⟨⟨_, exec_rdPadLen_of_idle hidle, padLenWord_toNat s⟩,
    _, exec_rdPad_of_idle hidle k, padWord_of_lt s, padWord_of_ge s, fun h => padWord_of_padInv h k⟩

end Sys2Proof.Proofs
end

section
/-! What a command write and the reads of the control registers answer (45_control.md R240 to R244). -/

namespace Sys2Proof.Machine

/-! ## Command words -/

/-- A word with a bit set above its low byte, or with a code that is none of 1 to 4, is none of the four command
words: R244's reading of the fields and R95's list of words agree. -/
theorem isCommandWord_of_reserved_fields {d : Word} (h : d.extractLsb' 8 24 ≠ 0 ∨
    (d.extractLsb' 0 8 ≠ 1 ∧ d.extractLsb' 0 8 ≠ 2 ∧ d.extractLsb' 0 8 ≠ 3 ∧ d.extractLsb' 0 8 ≠ 4)) :
    isCommandWord d = false := by
  rw [← Bool.not_eq_true]
  intro hcmd
  obtain rfl | rfl | rfl | rfl := isCommandWord_cases hcmd <;> exact absurd h (by decide)

/-- While busy, every command word but `CLEAR_ERR` is rejected (45_control.md R240, R245). -/
theorem exec_decodeCommand_of_busy {d : Word} (hd : d ≠ 4) {s : State} (hbusy : s.busy = true) :
    exec (decodeCommand d) s = .next (s.raiseError .busy) := by
  cases hcmd : isCommandWord d with
  | true =>
    obtain rfl | rfl | rfl | rfl := isCommandWord_cases hcmd
    · exact checkedWrite_of_busy hbusy _ _
    · exact checkedWrite_of_busy hbusy _ _
    · exact checkedWrite_of_busy hbusy _ _
    · exact absurd rfl hd
  | false =>
    rw [decodeCommand_of_not_isCommandWord hcmd]
    exact checkedWrite_of_busy hbusy _ _

/-- A reserved command has no effect but its error: the busy rule goes before `BAD_COMMAND` (45_control.md
R244). -/
theorem exec_wrCmdReserved (d : Word) (s : State) :
    exec (.wrCmdReserved d) s = .next (s.raiseError (if s.busy then .busy else .badCommand)) := by
  cases hbusy : s.busy with
  | true => exact checkedWrite_of_busy hbusy _ _
  | false => exact checkedWrite_of_fail (by rw [hbusy]; rfl)

/-! ## Reads -/

theorem exec_rdTotalbitsLo_of_idle {s : State} (h : s.busy = false) :
    exec .rdTotalbitsLo s = .next { s with rdata := lowHalf s.totalbits } :=
  hostRead_of_idle h _

theorem exec_rdTotalbitsHi_of_idle {s : State} (h : s.busy = false) :
    exec .rdTotalbitsHi s = .next { s with rdata := highHalf s.totalbits } :=
  hostRead_of_idle h _

/-- The two halves of a 64-bit register make up its value (20_memory.md R64). -/
theorem halves_toNat (x : BitVec 64) : (highHalf x).toNat * 2 ^ 32 + (lowHalf x).toNat = x.toNat := by
  rw [highHalf_toNat, lowHalf_toNat]
  exact Nat.div_add_mod' _ _

/-- The fields of `STATUS` as a sum (30_encoding.md R98). -/
theorem statusWord_toNat (s : State) : s.statusWord.toNat =
    (if s.estate = .idle then 0 else 1) + 2 * s.phase.code.toNat + 16 * s.err.code.toNat + 256 * s.bufcnt.toNat := by
  have hbusy : (BitVec.ofBool s.busy).toNat = if s.estate = .idle then 0 else 1 := by
    unfold State.busy
    cases s.estate <;> rfl
  simp only [State.statusWord, toNat_append_eq_add, hbusy, BitVec.toNat_zero]
  omega

end Sys2Proof.Machine
end

section
/-! The statements of the control family (45_control.md R240 to R247). -/

namespace Sys2Proof.Proofs

open Sys2Proof Sys2Proof.Machine

/-- Settles O23: `CLEAR_ERR` has no check, the busy rule is the first check of every other command word, and a word
with reserved fields is the reserved command. -/
theorem commandWriteIsDecodedInOrder : Obligations.CommandWriteIsDecodedInOrder := by
  intro s data
  refine ⟨decodeCommand data, decode_asmWr_cmd data, fun h => h ▸ rfl, fun hne hbusy => ?_,
    fun hidle hreserved => ?_, fun h => h ▸ rfl, fun h => h ▸ rfl, fun h => h ▸ rfl⟩
  · rw [← raiseError_eq]
    exact exec_decodeCommand_of_busy hne hbusy
  · rw [decodeCommand_of_not_isCommandWord (isCommandWord_of_reserved_fields hreserved), exec_wrCmdReserved, hidle]
    exact ⟨rfl, congrArg _ (raiseError_eq s .badCommand)⟩

/-- Settles O20: the writes are `ignoreWrite`, the reads are `hostRead 0`, which answers both ways. -/
theorem accessesToNoOrdinaryRegister : Obligations.AccessesToNoOrdinaryRegister := by
  intro s d i3 i5 a b
  exact ⟨fun i hi => by fin_cases hi <;> rfl, fun i hi => by fin_cases hi <;> rfl⟩

/-- Settles O18: the busy rule is the first check of each of the nine writes; the ignored writes are those of O20. -/
theorem busyWriteIsRejected : Obligations.BusyWriteIsRejected := by
  intro s d k l a b hbusy
  obtain ⟨hignored, -⟩ := accessesToNoOrdinaryRegister s d k l a b
  refine ⟨fun i hi => ?_, rfl, hignored⟩
  rw [← raiseError_eq]
  fin_cases hi <;> exact checkedWrite_of_busy hbusy _ _

/-- Settles O19: every read but `RD STATUS` is a `hostRead`. -/
theorem busyReadReturnsAFreeValue : Obligations.BusyReadReturnsAFreeValue := by
  intro s i hbusy hrd hne
  cases i with
  | rdStatus => exact absurd rfl hne
  | rdTotalbitsLo | rdTotalbitsHi | rdFlenLo | rdFlenHi | rdDigest | rdFdig | rdPadLen | rdPad | rdCmd
  | rdDinByte | rdDinWord => exact hostRead_of_busy hbusy _
  | rsvd64 dir | rsvd68 dir | rsvd70 dir =>
    obtain rfl : dir = .rd := hrd
    exact hostRead_of_busy hbusy 0
  | wrCmdInit | wrCmdFinalize | wrCmdForgeInit | wrCmdClearErr | wrCmdReserved | wrDinByte | wrDinWord
  | wrFlenLo | wrFlenHi | wrFdig | wrStatus | wrTotalbitsLo | wrTotalbitsHi | wrDigest | wrPadLen | wrPad =>
    cases hrd

/-- Settles O22: `CLEAR_ERR` has no check, and a word that decodes to it carries its data, which is 4. -/
theorem clearErrClearsTheErrorOnly : Obligations.ClearErrClearsTheErrorOnly := by
  refine ⟨fun _ => rfl, by decide, fun data => ⟨fun hd => ?_, ?_⟩, fun s => ⟨by decide, ?_⟩⟩
  · obtain ⟨-, -, -, hdata⟩ := decode_eq_ok_iff.1 hd
    exact (busData_busWord .wr 0 data).symm.trans (hdata rfl)
  · rintro rfl
    exact decode_asmWr_cmd 4
  · rw [← raiseError_eq]
    exact exec_wrCmdReserved 0x104 s

/-- Settles O24: `RD STATUS` answers the status word in every state, and the word is that sum. -/
theorem statusReadReturnsTheSum : Obligations.StatusReadReturnsTheSum :=
  ⟨by decide, fun s => ⟨s.answer s.statusWord, rfl, rfl, statusWord_toNat s⟩⟩

/-- Settles O25: the words read are the halves of the register. -/
theorem halvesReadGiveTheWholeRegister : Obligations.HalvesReadGiveTheWholeRegister := fun s hidle =>
  ⟨⟨_, _, exec_rdTotalbitsLo_of_idle hidle, exec_rdTotalbitsHi_of_idle hidle, halves_toNat s.totalbits⟩,
    _, _, exec_rdFlenLo_of_idle hidle, exec_rdFlenHi_of_idle hidle, halves_toNat s.flen⟩

end Sys2Proof.Proofs
end

section
/-! No operation traps, and an error it records is its only effect (60_exceptions.md R260 to R264). -/

namespace Sys2Proof.Machine

theorem checkedWrite_completes (s : State) (checks : List (Bool × ErrCode)) (effect : State → State) :
    ∃ t, s.checkedWrite checks effect = .next t := by
  rcases checkedWrite_cases s checks effect with ⟨e, -, h⟩ | ⟨-, h⟩ <;> exact ⟨_, h⟩

theorem reservedAccess_completes (s : State) (dir : Dir) (d : Word) : ∃ t, s.reservedAccess dir d = .next t := by
  cases dir with
  | rd => exact ⟨_, rfl⟩
  | wr => exact ⟨_, rfl⟩

theorem exec_completes (i : Instr) (s : State) : ∃ t, exec i s = .next t := by
  cases i with
  | wrCmdInit | wrCmdFinalize | wrCmdForgeInit | wrCmdReserved | wrDinByte | wrDinWord | wrFlenLo | wrFlenHi
  | wrFdig => exact checkedWrite_completes s _ _
  | wrCmdClearErr => exact ⟨s.clearError, rfl⟩
  | rdStatus | rdTotalbitsLo | rdTotalbitsHi | rdFlenLo | rdFlenHi | rdDigest | rdFdig | rdPadLen | rdPad | rdCmd
  | rdDinByte | rdDinWord => exact ⟨_, rfl⟩
  | wrStatus | wrTotalbitsLo | wrTotalbitsHi | wrDigest | wrPadLen | wrPad => exact ⟨s, rfl⟩
  | rsvd64 | rsvd68 | rsvd70 => exact reservedAccess_completes s _ _

/-- An operation other than `CLEAR_ERR` leaves `ERR` as it was unless it is rejected. -/
theorem hostEffect_err {i : Instr} {s t : State} (heff : HostEffect s i t) (hne : i ≠ .wrCmdClearErr) :
    t.err = s.err ∨ ∃ e, t = s.raiseError e := by
  cases heff with
  | @rejected _ e => exact .inr ⟨e, rfl⟩
  | errorCleared => exact absurd rfl hne
  | @absorbed _ bs =>
    obtain ⟨-, -, -, -, -, -, herr, -⟩ := absorbAll_frame bs s
    exact .inl herr
  | ignored | answered | answeredFree | started | finalized | forged | wroteFlenLo | wroteFlenHi | wroteFdig =>
    exact .inl rfl

/-- An error recorded earlier is kept (60_exceptions.md R262). -/
theorem raiseError_of_err_ne {s : State} (h : s.err ≠ .none) (e : ErrCode) : s.raiseError e = s :=
  if_neg h

end Sys2Proof.Machine
end

section
/-! The internal-consistency fault: where the step raises it, and that a run from the invariant never meets it
(60_exceptions.md R268, 42_compression.md R169). -/

namespace Sys2Proof.Machine

/-! ## Inconsistent states -/

theorem ifConsistent_of_some {s : State} {f : Fault} (h : s.inconsistency = some f) (next : State → Result) :
    s.ifConsistent next = .fault f := by
  unfold State.ifConsistent
  rw [h]

/-- The bookkeeping the check holds a state to, cause by cause. -/
theorem inconsistency_eq_none_iff (s : State) :
    s.inconsistency = none ↔
      ¬s.jq.length > 2 ∧ ¬(s.estate = .load ∧ s.jq = []) ∧ s.phase ≠ .illegal ∧ ¬(s.err = .code6 ∨ s.err = .code7) := by
  simp only [State.inconsistency, ite_eq_iff, reduceCtorEq, and_false, false_or, and_true, ne_eq]

theorem step_of_inconsistent {s : State} {f : Fault} (hf : s.inconsistency = some f)
    (hreset : ∀ rest, s.script ≠ .reset :: rest) : step s = .fault f := by
  unfold step nextTurn
  cases hs : s.script with
  | nil => exact ifConsistent_of_some hf _
  | cons turn rest =>
    cases turn with
    | host a => exact ifConsistent_of_some (by rwa [inconsistency_script]) _
    | engine n => exact ifConsistent_of_some (by rwa [inconsistency_script]) _
    | reset => exact absurd hs (hreset rest)

/-! ## Runs from the invariant -/

theorem step_of_reset {s : State} {rest : List Turn} (hs : s.script = .reset :: rest) :
    step s = .next (State.platformReset { s with script := rest }) := by
  unfold step nextTurn
  rw [hs]
  rfl

theorem engineTurn_completes (n : Nat) {s : State} (h : s.Inv) : ∃ t, engineTurn n s = .next t := by
  induction n generalizing s with
  | zero => exact ⟨s, rfl⟩
  | succ n ih =>
    obtain ⟨t, hm⟩ := exists_microStep h
    rw [engineTurn_succ n hm]
    exact ih (microStep_inv h hm)

/-- The host's turn ends in the next state of an operation, or the access is none. -/
theorem hostTurn_answers (a : BusAccess) (s : State) :
    (∃ t, hostTurn a s = .next t) ∨ ∃ r, hostTurn a s = .refused r := by
  cases hd : decodeAccess a.bytes a.word with
  | ok i =>
    rw [hostTurn_of_decode hd]
    exact .inl (exec_completes i s)
  | error e => exact .inr ⟨_, hostTurn_of_decodeError hd s⟩

/-- From the invariant every step ends in a next state or in a refused access. -/
theorem step_answers {s : State} (h : s.Inv) : (∃ t, step s = .next t) ∨ ∃ r, step s = .refused r := by
  have hc := inconsistency_of_inv h
  cases hs : s.script with
  | nil =>
    rw [step_of_no_turn hc hs]
    exact .inl (exists_microStep h)
  | cons turn rest =>
    have hrest : State.Inv { s with script := rest } := h
    cases turn with
    | host a =>
      rw [step_of_host hc hs]
      exact hostTurn_answers a _
    | engine n =>
      rw [step_of_engine hc hs]
      exact .inl (engineTurn_completes n hrest)
    | reset => exact .inl ⟨_, step_of_reset hs⟩

theorem run_succ_of_refused {s : State} {r : Refusal} (n : Nat) (h : step s = .refused r) :
    Host.Core.run core (n + 1) s = .refused r := by
  have hstep : core.step s = .refused r := h
  simp only [Host.Core.run]
  rw [hstep]

theorem safeFor_of_inv (n : Nat) {s : State} (h : s.Inv) : SafeFor n s := by
  induction n generalizing s with
  | zero => exact fun f hf => nomatch hf
  | succ n ih =>
    intro f
    rcases step_answers h with ⟨t, ht⟩ | ⟨r, hr⟩
    · rw [run_succ n ht]
      exact ih (step_inv h ht) f
    · rw [run_succ_of_refused n hr]
      exact fun hf => nomatch hf

end Sys2Proof.Machine
end

section
/-! A step of one core of a platform (60_exceptions.md R276, 70_reset_and_hazards.md R302). -/

namespace Sys2Proof.Machine

theorem stepAt_eq_next_iff {p q : Platform} {k : Nat} :
    p.stepAt k = some (.next q) ↔
      ∃ s t, p.instances[k]? = some s ∧ step s = .next t ∧ q = ⟨p.instances.set k t⟩ := by
  unfold Platform.stepAt
  rw [Option.map_eq_some_iff]
  refine exists_congr fun s => ⟨fun ⟨hs, hq⟩ => ?_, fun ⟨t, hs, ht, hq⟩ => ⟨hs, by rw [ht, hq]⟩⟩
  cases ht : step s with
  | next t =>
    rw [ht] at hq
    exact ⟨t, hs, rfl, (Host.Outcome.next.inj hq).symm⟩
  | fault f => rw [ht] at hq; cases hq
  | refused r => rw [ht] at hq; cases hq

end Sys2Proof.Machine
end

section
/-! The statements of the exceptions family (60_exceptions.md R260 to R276). -/

namespace Sys2Proof.Proofs

open Sys2Proof Sys2Proof.Machine

/-- Settles O15: from the invariant a step answers a state with the invariant or refuses an access. -/
theorem noRunFromTheInvariantFaults : Obligations.NoRunFromTheInvariantFaults := fun _ n => safeFor_of_inv n

/-- Settles O17: only a rejection changes `ERR`, and it changes nothing else, or nothing at all once an error is
recorded. -/
theorem errorIsStickyAndHasNoOtherEffect : Obligations.ErrorIsStickyAndHasNoOtherEffect := by
  intro i s t h hne hchanged
  obtain hsame | ⟨e, rfl⟩ := hostEffect_err (hostEffect_of_exec h) hne
  · exact absurd hsame hchanged
  · refine ⟨by_contra fun herr => hchanged ?_, ?_⟩
    · rw [raiseError_of_err_ne herr]
    · rw [raiseError_eq]

/-- Settles O59: each step replaces the state of its own core by one that depends on that state alone. -/
theorem instancesDoNotInterfere : Obligations.InstancesDoNotInterfere := by
  intro p k l q r hne hk hl
  obtain ⟨s, s', hs, hss', rfl⟩ := stepAt_eq_next_iff.1 hk
  obtain ⟨u, u', hu, huu', rfl⟩ := stepAt_eq_next_iff.1 hl
  have hkeepsl : (p.instances.set k s')[l]? = p.instances[l]? := List.getElem?_set_ne hne
  have hkeepsk : (p.instances.set l u')[k]? = p.instances[k]? := List.getElem?_set_ne hne.symm
  refine ⟨hkeepsl, ⟨(p.instances.set k s').set l u'⟩, stepAt_eq_next_iff.2 ?_, stepAt_eq_next_iff.2 ?_⟩
  · exact ⟨u, u', hkeepsl.trans hu, huu', rfl⟩
  · exact ⟨s, s', hkeepsk.trans hs, hss', congrArg Platform.mk (List.set_comm s' u' hne)⟩

/-- Settles O12: each cause makes the check fail, and every turn but a reset makes the check first. -/
theorem inconsistentStateStopsUnlessReset : Obligations.InconsistentStateStopsUnlessReset := by
  intro s hcause hreset
  obtain ⟨f, hf⟩ : ∃ f, s.inconsistency = some f := by
    refine Option.ne_none_iff_exists'.1 fun hnone => ?_
    obtain ⟨hlen, hload, hphase, herr⟩ := (inconsistency_eq_none_iff s).1 hnone
    obtain h | h | h | h := hcause
    exacts [hlen h, hload h, hphase h, herr h]
  exact ⟨f, step_of_inconsistent hf hreset⟩

/-- Settles O16: `exec_completes`; a write records an error or has its effect, a read answers. -/
theorem everyHostOperationCompletes : Obligations.EveryHostOperationCompletes := exec_completes

end Sys2Proof.Proofs
end

section
/-! What the reset state holds and what its registers read as (70_reset_and_hazards.md R290, R293). -/

namespace Sys2Proof.Machine

@[simp] theorem reset_busy : State.reset.busy = false := rfl

@[simp] theorem reset_statusWord : State.reset.statusWord = 0 := by decide

theorem platformReset_statusWord (s : State) : s.platformReset.statusWord = 0 := reset_statusWord

@[simp] theorem bankWord_replicate (d : Word) (i : BitVec 3) : bankWord (Vector.replicate 8 d) i = d :=
  Vector.getElem_replicate _

theorem reset_padWord (k : BitVec 5) : State.reset.padWord k = 0 := by
  by_cases hk : k.toNat < 18
  · rw [State.padWord, if_pos hk]
    exact Vector.getElem_replicate _
  · exact padWord_of_ge _ (Nat.not_lt.1 hk)

/-- The reset state is idle, so a register that holds 0 reads as 0. -/
theorem hostRead_reset_of_eq_zero {x : Word} (hx : x = 0) :
    State.reset.hostRead x = .next (State.reset.answer 0) := by
  rw [hostRead_of_idle reset_busy, hx]

/-- Every read of the reset state leaves 0 on the read-data lines and changes nothing else. -/
theorem exec_reset_of_rd {i : Instr} (hrd : i.dir = .rd) :
    exec i State.reset = .next (State.reset.answer 0) := by
  cases i with
  | rdStatus => exact congrArg (fun x => Host.Outcome.next (State.reset.answer x)) reset_statusWord
  | rdTotalbitsLo | rdTotalbitsHi | rdFlenLo | rdFlenHi | rdPadLen | rdCmd | rdDinByte | rdDinWord =>
    exact hostRead_reset_of_eq_zero rfl
  | rdDigest k | rdFdig k => exact hostRead_reset_of_eq_zero (bankWord_replicate 0 k)
  | rdPad k => exact hostRead_reset_of_eq_zero (reset_padWord k)
  | rsvd64 dir | rsvd68 dir | rsvd70 dir =>
    obtain rfl : dir = .rd := hrd
    exact hostRead_reset_of_eq_zero rfl
  | wrCmdInit | wrCmdFinalize | wrCmdForgeInit | wrCmdClearErr | wrCmdReserved | wrDinByte | wrDinWord
  | wrFlenLo | wrFlenHi | wrFdig | wrStatus | wrTotalbitsLo | wrTotalbitsHi | wrDigest | wrPadLen | wrPad =>
    cases hrd

end Sys2Proof.Machine
end

section
/-! The statements of the reset family (70_reset_and_hazards.md R290, R293). -/

namespace Sys2Proof.Proofs

open Sys2Proof Sys2Proof.Machine

/-- Settles O10: a reset turn makes no check and ends in `platformReset`, whose seventeen pieces are those of
`State.reset`. -/
theorem resetTurnClearsTheInstance : Obligations.ResetTurnClearsTheInstance := fun _ _ hs =>
  ⟨_, step_of_reset hs, rfl, rfl, rfl, rfl, rfl, rfl, rfl, rfl, rfl, rfl, rfl, rfl, rfl, rfl, rfl, rfl, rfl,
    platformReset_statusWord _, rfl⟩

/-- Settles O11: every read is a read of a register that holds 0, by a core that is not busy. -/
theorem everyReadAfterResetReturnsZero : Obligations.EveryReadAfterResetReturnsZero := fun _ hrd =>
  ⟨_, exec_reset_of_rd hrd, rfl, rfl⟩

end Sys2Proof.Proofs
end
